-- ==== Sys2Proof/Word.lean ====
section
/-! DEFINITION. The word types of GAB-RS-CORE (spec/00_scope.md R10, R11). -/

namespace Sys2Proof

/-- A scalar register, a command word or a CSR value: XLEN = 32 bits (00_scope.md R10, 10_state.md R31). -/
abbrev Word := BitVec 32

/-- A DMEM word or a word of the bit stream: 16 bits (20_memory.md R80, 10_state.md R47). -/
abbrev Half := BitVec 16

/-- A field element in a table, the root buffer or a polynomial: 12 bits (10_state.md R45, R46). -/
abbrev Elem := BitVec 12

/-- A polynomial, its coefficients highest degree first (00_scope.md R13). -/
abbrev Poly := List Elem

end Sys2Proof
end

