-- ==== Sys2Proof/Syntax.lean ====
section
/-! DEFINITION. The commands of GAB-RS-CORE, one constructor per row of spec/opcode_table.json
(30_encoding.md R110). The operands stand in the field order a, b, c, d, then the immediate (R105);
a field that must be 0 is no operand. -/

namespace Sys2Proof

/-- A field of kind S: a scalar register S0..S15 (30_encoding.md R103). -/
abbrev SReg := Fin 16

/-- A field of kind Q: a polynomial register Q0..Q7 (30_encoding.md R103). -/
abbrev QReg := Fin 8

/-- The commands. -/
inductive Instr where
  /-- NOP (40_support.md R130). -/
  | nop
  /-- LI (R131). -/
  | li (rd : SReg) (imm16 : BitVec 16)
  /-- LIH (R132). -/
  | lih (rd : SReg) (imm16 : BitVec 16)
  /-- MOV (R133). -/
  | mov (rd rs : SReg)
  /-- LDW (R134). -/
  | ldw (rd ra : SReg)
  /-- STW (R135). -/
  | stw (rv ra : SReg)
  /-- RDCSR (R138). -/
  | rdcsr (rd : SReg) (csr : BitVec 10)
  /-- FCFG (41_field.md R150). -/
  | fcfg (rsize rgen rbase : SReg)
  /-- GADD (R156). -/
  | gadd (rd rx ry : SReg)
  /-- GMUL (R157). -/
  | gmul (rd rx ry : SReg)
  /-- GINV (R159). -/
  | ginv (rd rx : SReg)
  /-- GDIV (R161). -/
  | gdiv (rd rx ry : SReg)
  /-- GEXP (R163). -/
  | gexp (rd re : SReg)
  /-- GLOG (R164). -/
  | glog (rd rx : SReg)
  /-- PZERO (42_polynomial.md R184). -/
  | pzero (qd : QReg)
  /-- PONE (R185). -/
  | pone (qd : QReg)
  /-- PMONO (R186). -/
  | pmono (qd : QReg) (rdeg rk : SReg)
  /-- PADD (R187). -/
  | padd (qd qs : QReg)
  /-- PMUL (R188). -/
  | pmul (qd qx qy : QReg)
  /-- PSCAL (R189). -/
  | pscal (qd : QReg) (rk : SReg)
  /-- PSHIFT (R190). -/
  | pshift (qd : QReg) (rk : SReg)
  /-- PEVAL (R191). -/
  | peval (rd : SReg) (q : QReg) (rx : SReg)
  /-- PDEG (R192). -/
  | pdeg (rd : SReg) (q : QReg)
  /-- PLEAD (R193). -/
  | plead (rd : SReg) (q : QReg)
  /-- PCONST (R194). -/
  | pconst (rd : SReg) (q : QReg)
  /-- PCOEF (R195). -/
  | pcoef (rd : SReg) (q : QReg) (rk : SReg)
  /-- PCOPY (R196). -/
  | pcopy (qd qs : QReg)
  /-- PLD (R197). -/
  | pld (qd : QReg) (raddr rn : SReg)
  /-- PST (R198). -/
  | pst (rd : SReg) (q : QReg) (raddr : SReg)
  /-- PZEROS (R199). -/
  | pzeros (rd : SReg) (q : QReg)
  /-- RSGEN (43_rs_encoder.md R231). -/
  | rsgen (qd : QReg) (rp : SReg)
  /-- RSENC (R234). -/
  | rsenc (qg : QReg) (rmsg rl rdst : SReg)
  /-- RSSYN (44_rs_decoder.md R251). -/
  | rssyn (qs : QReg) (raddr rn rp : SReg)
  /-- RSEUC (R255). -/
  | rseuc (qsig qomg qs : QReg) (rp : SReg)
  /-- RSFIX (R270). -/
  | rsfix (rd raddr rn : SReg) (qomg : QReg)
  /-- RSDEC (R280). -/
  | rsdec (rd raddr rn rp : SReg)
  /-- RBST (R275). -/
  | rbst (rd raddr : SReg)
  /-- BAINIT (45_bitappender.md R291); `sd` is imm10 bit 0. -/
  | bainit (rw : SReg) (sd : Bool)
  /-- BAAPP (R293). -/
  | baapp (rv rn : SReg)
  /-- BAPAD (R297). -/
  | bapad
  /-- BAST (R299). -/
  | bast (rd raddr : SReg)
  /-- MENC (46_mode_encoder.md R350). -/
  | menc (rd raddr rn rw : SReg)
  /-- MSLOT (R354). -/
  | mslot (rd rm : SReg)
deriving DecidableEq, Repr

end Sys2Proof
end

