-- ==== Sys2Proof/WellFormed.lean ====
section
/-! DEFINITION. Which commands are well formed (30_encoding.md R103, R112).

The operand types hold the range checks (a scalar register is 0..15, a polynomial register 0..7, an
immediate has its width), so the one check left is the command-specific static check of R112 (3). -/

namespace Sys2Proof

/-- The static check of 30_encoding.md R112 (3) and 44_rs_decoder.md R255: RSEUC names two different
destination registers. Every other command whose operands are in their types is well formed. -/
def Instr.wf : Instr → Bool
  | .rseuc qsig qomg _ _ => qsig != qomg
  | _ => true

end Sys2Proof
end

