-- ==== Sys2Proof/Decode.lean ====
section
/-! DEFINITION. Decoding a command word and encoding a command (spec/30_encoding.md R100 to R114).

Every 32-bit word decodes to one command or is rejected with a name (R114); on the hardware every rejection
is the fault ILLEGAL_COMMAND (R112). -/

namespace Sys2Proof

/-- Why a word is no command, one name for each step of 30_encoding.md R112. -/
inductive DecodeError where
  /-- R112 (1), R113: bits 31:26 hold a reserved opcode. -/
  | reservedOpcode
  /-- R112 (2), R103: a must-be-zero bit is 1 or a field of kind Q holds 8..15. -/
  | fixedBits
  /-- R112 (3), 44_rs_decoder.md R255: RSEUC with a = b. -/
  | rseucSameDestination
deriving DecidableEq, Repr

/-- The field `w[lo+width-1 : lo]` as an unsigned number (00_scope.md R11). -/
def field (w : Word) (lo width : Nat) : Nat :=
  w.toNat / 2 ^ lo % 2 ^ width

/-- The scalar register a field of kind S names (30_encoding.md R103). -/
def sreg (n : Nat) : SReg := Fin.ofNat 16 n

/-- The polynomial register a field of kind Q names, once it is known to be 0..7 (30_encoding.md R103). -/
def qreg (n : Nat) : QReg := Fin.ofNat 8 n

/-- The command `i` where the fixed bits of its row are as they must be, else the rejection of R112 (2). -/
def need (fixed : Prop) [Decidable fixed] (i : Instr) : Except DecodeError Instr :=
  if fixed then .ok i else .error .fixedBits

/-- Decode a command whose opcode is `op` and whose fields a, b, c, d, imm10 (30_encoding.md R101) are given;
`z` is the field 21:16 and `imm16` the field 15:0 of format I (R102). One line per row of R110. -/
def decodeFields (op a b c d imm z imm16 : Nat) : Except DecodeError Instr :=
  match op with
  | 0x00 => need (a = 0 ∧ b = 0 ∧ c = 0 ∧ d = 0 ∧ imm = 0) .nop
  | 0x01 => need (z = 0) (.li (sreg a) (BitVec.ofNat 16 (imm16)))
  | 0x02 => need (z = 0) (.lih (sreg a) (BitVec.ofNat 16 (imm16)))
  | 0x03 => need (c = 0 ∧ d = 0 ∧ imm = 0) (.mov (sreg a) (sreg b))
  | 0x04 => need (c = 0 ∧ d = 0 ∧ imm = 0) (.ldw (sreg a) (sreg b))
  | 0x05 => need (c = 0 ∧ d = 0 ∧ imm = 0) (.stw (sreg a) (sreg b))
  | 0x06 => need (b = 0 ∧ c = 0 ∧ d = 0) (.rdcsr (sreg a) (BitVec.ofNat 10 imm))
  | 0x10 => need (a = 0 ∧ imm = 0) (.fcfg (sreg b) (sreg c) (sreg d))
  | 0x11 => need (d = 0 ∧ imm = 0) (.gadd (sreg a) (sreg b) (sreg c))
  | 0x12 => need (d = 0 ∧ imm = 0) (.gmul (sreg a) (sreg b) (sreg c))
  | 0x13 => need (c = 0 ∧ d = 0 ∧ imm = 0) (.ginv (sreg a) (sreg b))
  | 0x14 => need (d = 0 ∧ imm = 0) (.gdiv (sreg a) (sreg b) (sreg c))
  | 0x15 => need (c = 0 ∧ d = 0 ∧ imm = 0) (.gexp (sreg a) (sreg b))
  | 0x16 => need (c = 0 ∧ d = 0 ∧ imm = 0) (.glog (sreg a) (sreg b))
  | 0x20 => need (a < 8 ∧ b = 0 ∧ c = 0 ∧ d = 0 ∧ imm = 0) (.pzero (qreg a))
  | 0x21 => need (a < 8 ∧ b = 0 ∧ c = 0 ∧ d = 0 ∧ imm = 0) (.pone (qreg a))
  | 0x22 => need (a < 8 ∧ d = 0 ∧ imm = 0) (.pmono (qreg a) (sreg b) (sreg c))
  | 0x23 => need (a < 8 ∧ b < 8 ∧ c = 0 ∧ d = 0 ∧ imm = 0) (.padd (qreg a) (qreg b))
  | 0x24 => need (a < 8 ∧ b < 8 ∧ c < 8 ∧ d = 0 ∧ imm = 0) (.pmul (qreg a) (qreg b) (qreg c))
  | 0x25 => need (a < 8 ∧ c = 0 ∧ d = 0 ∧ imm = 0) (.pscal (qreg a) (sreg b))
  | 0x26 => need (a < 8 ∧ c = 0 ∧ d = 0 ∧ imm = 0) (.pshift (qreg a) (sreg b))
  | 0x27 => need (b < 8 ∧ d = 0 ∧ imm = 0) (.peval (sreg a) (qreg b) (sreg c))
  | 0x28 => need (b < 8 ∧ c = 0 ∧ d = 0 ∧ imm = 0) (.pdeg (sreg a) (qreg b))
  | 0x29 => need (b < 8 ∧ c = 0 ∧ d = 0 ∧ imm = 0) (.plead (sreg a) (qreg b))
  | 0x2A => need (b < 8 ∧ c = 0 ∧ d = 0 ∧ imm = 0) (.pconst (sreg a) (qreg b))
  | 0x2B => need (b < 8 ∧ d = 0 ∧ imm = 0) (.pcoef (sreg a) (qreg b) (sreg c))
  | 0x2C => need (a < 8 ∧ b < 8 ∧ c = 0 ∧ d = 0 ∧ imm = 0) (.pcopy (qreg a) (qreg b))
  | 0x2D => need (a < 8 ∧ d = 0 ∧ imm = 0) (.pld (qreg a) (sreg b) (sreg c))
  | 0x2E => need (b < 8 ∧ d = 0 ∧ imm = 0) (.pst (sreg a) (qreg b) (sreg c))
  | 0x2F => need (b < 8 ∧ c = 0 ∧ d = 0 ∧ imm = 0) (.pzeros (sreg a) (qreg b))
  | 0x30 => need (a < 8 ∧ c = 0 ∧ d = 0 ∧ imm = 0) (.rsgen (qreg a) (sreg b))
  | 0x31 => need (a < 8 ∧ imm = 0) (.rsenc (qreg a) (sreg b) (sreg c) (sreg d))
  | 0x32 => need (a < 8 ∧ imm = 0) (.rssyn (qreg a) (sreg b) (sreg c) (sreg d))
  | 0x33 => if a < 8 ∧ b < 8 ∧ c < 8 ∧ imm = 0 ∧ a = b then .error .rseucSameDestination
      else need (a < 8 ∧ b < 8 ∧ c < 8 ∧ imm = 0) (.rseuc (qreg a) (qreg b) (qreg c) (sreg d))
  | 0x34 => need (d < 8 ∧ imm = 0) (.rsfix (sreg a) (sreg b) (sreg c) (qreg d))
  | 0x35 => need (imm = 0) (.rsdec (sreg a) (sreg b) (sreg c) (sreg d))
  | 0x36 => need (c = 0 ∧ d = 0 ∧ imm = 0) (.rbst (sreg a) (sreg b))
  | 0x38 => need (a = 0 ∧ c = 0 ∧ d = 0 ∧ imm < 2) (.bainit (sreg b) (imm == 1))
  | 0x39 => need (a = 0 ∧ d = 0 ∧ imm = 0) (.baapp (sreg b) (sreg c))
  | 0x3A => need (a = 0 ∧ b = 0 ∧ c = 0 ∧ d = 0 ∧ imm = 0) .bapad
  | 0x3B => need (c = 0 ∧ d = 0 ∧ imm = 0) (.bast (sreg a) (sreg b))
  | 0x3C => need (imm = 0) (.menc (sreg a) (sreg b) (sreg c) (sreg d))
  | 0x3D => need (c = 0 ∧ d = 0 ∧ imm = 0) (.mslot (sreg a) (sreg b))
  | _ => .error .reservedOpcode

/-- Decode a command word (30_encoding.md R112). -/
def decode (w : Word) : Except DecodeError Instr :=
  decodeFields (field w 26 6) (field w 22 4) (field w 18 4) (field w 14 4) (field w 10 4) (field w 0 10)
    (field w 16 6) (field w 0 16)

/-- The instruction the decoder reads from the word `w`; every row of spec/opcode_table.json is one
32-bit word (30_encoding.md R100), so `nbits` is 32. -/
def decodeTableWord (_nbits w : Nat) : Option Instr :=
  if w < 2 ^ 32 then
    match decode (BitVec.ofNat 32 w) with
    | .ok i => some i
    | .error _ => none
  else none

/-! ### The encoder -/

/-- A format R word from its fields (30_encoding.md R101). -/
def packR (op a b c d imm : Nat) : Word :=
  BitVec.ofNat 32 (op * 2 ^ 26 + a * 2 ^ 22 + b * 2 ^ 18 + c * 2 ^ 14 + d * 2 ^ 10 + imm)

/-- A format I word from its fields (30_encoding.md R102). -/
def packI (op a imm16 : Nat) : Word :=
  BitVec.ofNat 32 (op * 2 ^ 26 + a * 2 ^ 22 + imm16)

/-- The word of a command, from the opcode map of 30_encoding.md R110. -/
def encode : Instr → Word
  | .nop => packR 0x00 0 0 0 0 0
  | .li rd imm16 => packI 0x01 rd imm16.toNat
  | .lih rd imm16 => packI 0x02 rd imm16.toNat
  | .mov rd rs => packR 0x03 rd rs 0 0 0
  | .ldw rd ra => packR 0x04 rd ra 0 0 0
  | .stw rv ra => packR 0x05 rv ra 0 0 0
  | .rdcsr rd csr => packR 0x06 rd 0 0 0 csr.toNat
  | .fcfg rsize rgen rbase => packR 0x10 0 rsize rgen rbase 0
  | .gadd rd rx ry => packR 0x11 rd rx ry 0 0
  | .gmul rd rx ry => packR 0x12 rd rx ry 0 0
  | .ginv rd rx => packR 0x13 rd rx 0 0 0
  | .gdiv rd rx ry => packR 0x14 rd rx ry 0 0
  | .gexp rd re => packR 0x15 rd re 0 0 0
  | .glog rd rx => packR 0x16 rd rx 0 0 0
  | .pzero qd => packR 0x20 qd 0 0 0 0
  | .pone qd => packR 0x21 qd 0 0 0 0
  | .pmono qd rdeg rk => packR 0x22 qd rdeg rk 0 0
  | .padd qd qs => packR 0x23 qd qs 0 0 0
  | .pmul qd qx qy => packR 0x24 qd qx qy 0 0
  | .pscal qd rk => packR 0x25 qd rk 0 0 0
  | .pshift qd rk => packR 0x26 qd rk 0 0 0
  | .peval rd q rx => packR 0x27 rd q rx 0 0
  | .pdeg rd q => packR 0x28 rd q 0 0 0
  | .plead rd q => packR 0x29 rd q 0 0 0
  | .pconst rd q => packR 0x2A rd q 0 0 0
  | .pcoef rd q rk => packR 0x2B rd q rk 0 0
  | .pcopy qd qs => packR 0x2C qd qs 0 0 0
  | .pld qd raddr rn => packR 0x2D qd raddr rn 0 0
  | .pst rd q raddr => packR 0x2E rd q raddr 0 0
  | .pzeros rd q => packR 0x2F rd q 0 0 0
  | .rsgen qd rp => packR 0x30 qd rp 0 0 0
  | .rsenc qg rmsg rl rdst => packR 0x31 qg rmsg rl rdst 0
  | .rssyn qs raddr rn rp => packR 0x32 qs raddr rn rp 0
  | .rseuc qsig qomg qs rp => packR 0x33 qsig qomg qs rp 0
  | .rsfix rd raddr rn qomg => packR 0x34 rd raddr rn qomg 0
  | .rsdec rd raddr rn rp => packR 0x35 rd raddr rn rp 0
  | .rbst rd raddr => packR 0x36 rd raddr 0 0 0
  | .bainit rw sd => packR 0x38 0 rw 0 0 sd.toNat
  | .baapp rv rn => packR 0x39 0 rv rn 0 0
  | .bapad => packR 0x3A 0 0 0 0 0
  | .bast rd raddr => packR 0x3B rd raddr 0 0 0
  | .menc rd raddr rn rw => packR 0x3C rd raddr rn rw 0
  | .mslot rd rm => packR 0x3D rd rm 0 0 0

/-! ### The opcode map as data -/

/-- The mnemonic of a command (30_encoding.md R110). -/
def mnemonicOf : Instr → String
  | .nop => "NOP"
  | .li _ _ => "LI"
  | .lih _ _ => "LIH"
  | .mov _ _ => "MOV"
  | .ldw _ _ => "LDW"
  | .stw _ _ => "STW"
  | .rdcsr _ _ => "RDCSR"
  | .fcfg _ _ _ => "FCFG"
  | .gadd _ _ _ => "GADD"
  | .gmul _ _ _ => "GMUL"
  | .ginv _ _ => "GINV"
  | .gdiv _ _ _ => "GDIV"
  | .gexp _ _ => "GEXP"
  | .glog _ _ => "GLOG"
  | .pzero _ => "PZERO"
  | .pone _ => "PONE"
  | .pmono _ _ _ => "PMONO"
  | .padd _ _ => "PADD"
  | .pmul _ _ _ => "PMUL"
  | .pscal _ _ => "PSCAL"
  | .pshift _ _ => "PSHIFT"
  | .peval _ _ _ => "PEVAL"
  | .pdeg _ _ => "PDEG"
  | .plead _ _ => "PLEAD"
  | .pconst _ _ => "PCONST"
  | .pcoef _ _ _ => "PCOEF"
  | .pcopy _ _ => "PCOPY"
  | .pld _ _ _ => "PLD"
  | .pst _ _ _ => "PST"
  | .pzeros _ _ => "PZEROS"
  | .rsgen _ _ => "RSGEN"
  | .rsenc _ _ _ _ => "RSENC"
  | .rssyn _ _ _ _ => "RSSYN"
  | .rseuc _ _ _ _ => "RSEUC"
  | .rsfix _ _ _ _ => "RSFIX"
  | .rsdec _ _ _ _ => "RSDEC"
  | .rbst _ _ => "RBST"
  | .bainit _ _ => "BAINIT"
  | .baapp _ _ => "BAAPP"
  | .bapad => "BAPAD"
  | .bast _ _ => "BAST"
  | .menc _ _ _ _ => "MENC"
  | .mslot _ _ => "MSLOT"

/-- A row of 30_encoding.md R110. -/
structure OpcodeRow where
  mnemonic : String
  opcode : Nat
  pattern : Word
  mask : Word
deriving DecidableEq, Repr

/-- The rows of 30_encoding.md R110: a word selects a row's command exactly when `w AND mask = match`
(here `pattern`). The decoder above is written from the formats; this list is the spec's own table,
for statements that hold the two beside each other. -/
def opcodeMap : List OpcodeRow :=
  [
  ⟨"NOP", 0x00, 0x00000000, 0xFFFFFFFF⟩,
  ⟨"LI", 0x01, 0x04000000, 0xFC3F0000⟩,
  ⟨"LIH", 0x02, 0x08000000, 0xFC3F0000⟩,
  ⟨"MOV", 0x03, 0x0C000000, 0xFC03FFFF⟩,
  ⟨"LDW", 0x04, 0x10000000, 0xFC03FFFF⟩,
  ⟨"STW", 0x05, 0x14000000, 0xFC03FFFF⟩,
  ⟨"RDCSR", 0x06, 0x18000000, 0xFC3FFC00⟩,
  ⟨"FCFG", 0x10, 0x40000000, 0xFFC003FF⟩,
  ⟨"GADD", 0x11, 0x44000000, 0xFC003FFF⟩,
  ⟨"GMUL", 0x12, 0x48000000, 0xFC003FFF⟩,
  ⟨"GINV", 0x13, 0x4C000000, 0xFC03FFFF⟩,
  ⟨"GDIV", 0x14, 0x50000000, 0xFC003FFF⟩,
  ⟨"GEXP", 0x15, 0x54000000, 0xFC03FFFF⟩,
  ⟨"GLOG", 0x16, 0x58000000, 0xFC03FFFF⟩,
  ⟨"PZERO", 0x20, 0x80000000, 0xFE3FFFFF⟩] ++
  [
  ⟨"PONE", 0x21, 0x84000000, 0xFE3FFFFF⟩,
  ⟨"PMONO", 0x22, 0x88000000, 0xFE003FFF⟩,
  ⟨"PADD", 0x23, 0x8C000000, 0xFE23FFFF⟩,
  ⟨"PMUL", 0x24, 0x90000000, 0xFE223FFF⟩,
  ⟨"PSCAL", 0x25, 0x94000000, 0xFE03FFFF⟩,
  ⟨"PSHIFT", 0x26, 0x98000000, 0xFE03FFFF⟩,
  ⟨"PEVAL", 0x27, 0x9C000000, 0xFC203FFF⟩,
  ⟨"PDEG", 0x28, 0xA0000000, 0xFC23FFFF⟩,
  ⟨"PLEAD", 0x29, 0xA4000000, 0xFC23FFFF⟩,
  ⟨"PCONST", 0x2A, 0xA8000000, 0xFC23FFFF⟩,
  ⟨"PCOEF", 0x2B, 0xAC000000, 0xFC203FFF⟩,
  ⟨"PCOPY", 0x2C, 0xB0000000, 0xFE23FFFF⟩,
  ⟨"PLD", 0x2D, 0xB4000000, 0xFE003FFF⟩,
  ⟨"PST", 0x2E, 0xB8000000, 0xFC203FFF⟩,
  ⟨"PZEROS", 0x2F, 0xBC000000, 0xFC23FFFF⟩] ++
  [
  ⟨"RSGEN", 0x30, 0xC0000000, 0xFE03FFFF⟩,
  ⟨"RSENC", 0x31, 0xC4000000, 0xFE0003FF⟩,
  ⟨"RSSYN", 0x32, 0xC8000000, 0xFE0003FF⟩,
  ⟨"RSEUC", 0x33, 0xCC000000, 0xFE2203FF⟩,
  ⟨"RSFIX", 0x34, 0xD0000000, 0xFC0023FF⟩,
  ⟨"RSDEC", 0x35, 0xD4000000, 0xFC0003FF⟩,
  ⟨"RBST", 0x36, 0xD8000000, 0xFC03FFFF⟩,
  ⟨"BAINIT", 0x38, 0xE0000000, 0xFFC3FFFE⟩,
  ⟨"BAAPP", 0x39, 0xE4000000, 0xFFC03FFF⟩,
  ⟨"BAPAD", 0x3A, 0xE8000000, 0xFFFFFFFF⟩,
  ⟨"BAST", 0x3B, 0xEC000000, 0xFC03FFFF⟩,
  ⟨"MENC", 0x3C, 0xF0000000, 0xFC0003FF⟩,
  ⟨"MSLOT", 0x3D, 0xF4000000, 0xFC03FFFF⟩]

end Sys2Proof
end

