-- ==== Sys2Proof/Config.lean ====
section
/-! DEFINITION. What is fixed for one machine: the constants of spec/00_scope.md R10, its parameters, and
the values the spec leaves open (spec/93_implementation_defined.md section 2) as uninterpreted constants. -/

namespace Sys2Proof

/-- POLY_MAXLEN (00_scope.md R10). -/
def Config.polyMaxLen : Nat := 4096

/-- FIELD_MAX_M (00_scope.md R10). -/
def Config.fieldMaxM : Nat := 12

/-- BS_WORDS (00_scope.md R10). -/
def Config.bsWords : Nat := 4096

/-- BIN_MAX (00_scope.md R10, 46_mode_encoder.md R332). -/
def Config.binMax : Nat := 2078

/-- A character mode of the mode encoder (46_mode_encoder.md R320, modes 0 to 4). -/
inductive CharMode where
  | upper
  | lower
  | mixed
  | punct
  | digit
deriving DecidableEq, Repr

/-- The modes U, L, M, P, D in the order of R320. -/
def CharMode.all : List CharMode := [.upper, .lower, .mixed, .punct, .digit]

/-- The number of a character mode (R320). -/
def CharMode.index : CharMode → Fin 5
  | .upper => 0
  | .lower => 1
  | .mixed => 2
  | .punct => 3
  | .digit => 4

/-- A code and its width in bits. -/
structure Code where
  code : Nat
  width : Nat
deriving DecidableEq, Repr

/-- Consecutive bytes `first..last` that have the consecutive codes `code, code + 1, ...`. -/
structure CodeRange where
  first : Nat
  last : Nat
  code : Nat
deriving DecidableEq, Repr

/-- A pair of bytes with one Punct code (46_mode_encoder.md R328). -/
structure PairCode where
  fst : Nat
  snd : Nat
  code : Nat
deriving DecidableEq, Repr

/-- The code that shifts from one mode to another for one character (46_mode_encoder.md R330). -/
structure ShiftCode where
  src : CharMode
  dst : CharMode
  code : Code
deriving DecidableEq, Repr

/-- The parameter AZTEC_TABLES (46_mode_encoder.md R322). The widths, R321's under the default, are
part of the parameter (93 G4; for pair codes log entry 23). `latch` is total, as R322 says; `bsFirst` and `bsRest` together are
BS_FROM, in the order it is tried (log entry 24), which holds at least one mode (R348 rests on that). -/
structure AztecTables where
  /-- CODE[m], the codes of mode m. -/
  codes : Vector (List CodeRange) 5
  /-- The code width of mode m (R321). -/
  widths : Vector Nat 5
  /-- PAIRS. -/
  pairs : List PairCode
  /-- LATCH[A][B]; the entries A = B are not used. -/
  latch : Vector (Vector (List Code) 5) 5
  /-- SHIFT[A][X]. -/
  shifts : List ShiftCode
  /-- BS_CODE. -/
  bsCode : Code
  /-- The first mode of BS_FROM. -/
  bsFirst : CharMode
  /-- The other modes of BS_FROM, in order. -/
  bsRest : List CharMode
deriving DecidableEq, Repr

/-- The parameters a model takes as an argument (00_scope.md R10). -/
structure Config where
  /-- DMEM_WORDS. -/
  dmemWords : Nat
  /-- CMDQ_DEPTH. -/
  cmdqDepth : Nat
  /-- AZTEC_TABLES. -/
  aztec : AztecTables
deriving DecidableEq, Repr

/-! ### Values the spec leaves open -/

/-- The power-on contents of the DMEM word at an address (20_memory.md R84, 93 V3): unspecified. -/
opaque Config.dmemPowerOn : Nat → Half

/-- An EXP entry no FCFG has written (10_state.md R45, 93 V1): unspecified. -/
opaque Config.unwrittenExp : Nat → Elem

/-- A LOG entry no FCFG has written (10_state.md R45, 93 V1), LOG[0] among them: unspecified. -/
opaque Config.unwrittenLog : Nat → Elem

/-- Whether a pending host access goes before the next command step, where both can go
(70_reset_and_hazards.md R464, 93 V9): a nondeterministic choice, one for each draw. -/
opaque Config.hostFirst : Nat → Bool

/-- Whether the executor takes its next command word as a step of its own, so that host operations can complete while that
command executes (70_reset_and_hazards.md R458, R464): a nondeterministic choice, one for each draw. -/
opaque Config.takeOnly : Nat → Bool

/-- What a host read of a CSR number outside the map of 10_state.md R38 returns: the spec gives no value;
one for each draw. -/
opaque Config.reservedCsr : Nat → Word

/-- SYMBOL_FOR (46_mode_encoder.md R360, 93 V7), the external collaborator's lookup: from a bit count,
errorCorrectionPercent and layerCount the word width of the smallest fitting symbol, or none. -/
opaque Config.symbolFor : Nat → Nat → Nat → Option Nat

end Sys2Proof
end

