-- ==== Sys2Proof/Machine/AztecTables.lean ====
section
/-! DEFINITION. The default of the parameter AZTEC_TABLES (spec/46_mode_encoder.md R321 to R331) and the
lookups of R322. The spec supplies every number here from general knowledge (93 G4 to G9). -/

namespace Sys2Proof.Machine

/-- CODE[m][b]: the code of byte `b` in mode `m`, if it has one (R322). -/
def aztecCode (T : AztecTables) (m : CharMode) (b : Nat) : Option Nat :=
  ((T.codes.get m.index).find? (fun r => decide (r.first ≤ b ∧ b ≤ r.last))).map (fun r => r.code + (b - r.first))

/-- The code of byte `b` in mode `m` with the width of that mode (R321, R322). -/
def aztecChar (T : AztecTables) (m : CharMode) (b : Nat) : Option Code :=
  (aztecCode T m b).map (fun c => ⟨c, T.widths.get m.index⟩)

/-- LATCH[A][B], the empty sequence for A = B (R322, R329). -/
def aztecLatch (T : AztecTables) (a b : CharMode) : List Code :=
  if a = b then [] else (T.latch.get a.index).get b.index

/-- SHIFT[A][X], if there is one (R322, R330). -/
def aztecShift (T : AztecTables) (a x : CharMode) : Option Code :=
  (T.shifts.find? (fun r => decide (r.src = a ∧ r.dst = x))).map (fun r => r.code)

/-- The Punct code of a byte pair, if it has one (R322, R328). -/
def aztecPair (T : AztecTables) (b c : Nat) : Option Nat :=
  (T.pairs.find? (fun r => decide (r.fst = b ∧ r.snd = c))).map (fun r => r.code)

/-- BS_FROM in the order R348 tries it (R322, R331): U, L, M under the default. For another value of the parameter the order
is that of the parameter's own list: DESIGN CHOICE, log entry 24. -/
def aztecBsFrom (T : AztecTables) : List CharMode :=
  T.bsFirst :: T.bsRest

/-- CODE[U] (R323). -/
def upperCodes : List CodeRange := [⟨0x20, 0x20, 1⟩, ⟨0x41, 0x5A, 2⟩]

/-- CODE[L] (R324). -/
def lowerCodes : List CodeRange := [⟨0x20, 0x20, 1⟩, ⟨0x61, 0x7A, 2⟩]

/-- CODE[M] (R325). -/
def mixedCodes : List CodeRange :=
  [⟨0x20, 0x20, 1⟩, ⟨0x01, 0x0D, 2⟩, ⟨0x1B, 0x1F, 15⟩, ⟨0x40, 0x40, 20⟩, ⟨0x5C, 0x5C, 21⟩,
   ⟨0x5E, 0x60, 22⟩, ⟨0x7C, 0x7C, 25⟩, ⟨0x7E, 0x7F, 26⟩]

/-- CODE[P] (R326). -/
def punctCodes : List CodeRange :=
  [⟨0x0D, 0x0D, 1⟩, ⟨0x21, 0x2F, 6⟩, ⟨0x3A, 0x3F, 21⟩, ⟨0x5B, 0x5B, 27⟩, ⟨0x5D, 0x5D, 28⟩,
   ⟨0x7B, 0x7B, 29⟩, ⟨0x7D, 0x7D, 30⟩]

/-- CODE[D] (R327). -/
def digitCodes : List CodeRange :=
  [⟨0x20, 0x20, 1⟩, ⟨0x30, 0x39, 2⟩, ⟨0x2C, 0x2C, 12⟩, ⟨0x2E, 0x2E, 13⟩]

/-- The default AZTEC_TABLES (R321, R323 to R331). -/
def defaultAztecTables : AztecTables where
  codes := #v[upperCodes, lowerCodes, mixedCodes, punctCodes, digitCodes]
  widths := #v[5, 5, 5, 5, 4]
  pairs := [⟨0x0D, 0x0A, 2⟩, ⟨0x2E, 0x20, 3⟩, ⟨0x2C, 0x20, 4⟩, ⟨0x3A, 0x20, 5⟩]
  latch := #v[
    #v[[], [⟨28, 5⟩], [⟨29, 5⟩], [⟨29, 5⟩, ⟨30, 5⟩], [⟨30, 5⟩]],
    #v[[⟨30, 5⟩, ⟨14, 4⟩], [], [⟨29, 5⟩], [⟨29, 5⟩, ⟨30, 5⟩], [⟨30, 5⟩]],
    #v[[⟨29, 5⟩], [⟨28, 5⟩], [], [⟨30, 5⟩], [⟨29, 5⟩, ⟨30, 5⟩]],
    #v[[⟨31, 5⟩], [⟨31, 5⟩, ⟨28, 5⟩], [⟨31, 5⟩, ⟨29, 5⟩], [], [⟨31, 5⟩, ⟨30, 5⟩]],
    #v[[⟨14, 4⟩], [⟨14, 4⟩, ⟨28, 5⟩], [⟨14, 4⟩, ⟨29, 5⟩], [⟨14, 4⟩, ⟨29, 5⟩, ⟨30, 5⟩], []]]
  shifts := [⟨.upper, .punct, ⟨0, 5⟩⟩, ⟨.lower, .punct, ⟨0, 5⟩⟩, ⟨.lower, .upper, ⟨28, 5⟩⟩,
    ⟨.mixed, .punct, ⟨0, 5⟩⟩, ⟨.digit, .punct, ⟨0, 4⟩⟩, ⟨.digit, .upper, ⟨15, 4⟩⟩]
  bsCode := ⟨31, 5⟩
  bsFirst := .upper
  bsRest := [.lower, .mixed]

/-- The parameters at the spec's defaults (00_scope.md R10): DMEM_WORDS 8192, CMDQ_DEPTH 16. -/
def defaultConfig : Config where
  dmemWords := 8192
  cmdqDepth := 16
  aztec := defaultAztecTables

end Sys2Proof.Machine
end

