-- ==== Sys2Proof/Machine/State.lean ====
section
/-! DEFINITION. The state of GAB-RS-CORE (spec/10_state.md, spec/20_memory.md), its reset value, and the
reasons a step could stop. -/

namespace Sys2Proof.Machine

/-- DMEM (20_memory.md R80): the words that have been written, by word address, addresses strictly rising.
A word not listed holds its power-on value. -/
abbrev Memory := List (Nat × Half)

/-- The outcome code DSTAT of RSDEC (10_state.md R40, 44_rs_decoder.md R283); 3 is never written. -/
inductive DStat where
  | noErrors
  | corrected
  | uncorrectable
deriving DecidableEq, Repr

/-- The field configuration and its tables (10_state.md R44, R45). -/
structure FieldCfg where
  /-- FVALID. -/
  valid : Bool
  /-- FSIZE. -/
  size : BitVec 13
  /-- FM. -/
  m : BitVec 4
  /-- FGEN. -/
  gen : BitVec 14
  /-- FBASE. -/
  base : BitVec 12
  /-- EXP: entry `i` is EXP[i]; an entry not listed is unspecified. -/
  expTab : List Elem
  /-- LOG: entry `k` is LOG[k+1]; LOG[0], which no rule writes or reads, is left out. -/
  logTab : List Elem
deriving DecidableEq, Repr

/-- The registers of the bit-stream unit less its completed words (10_state.md R47). -/
structure Packer where
  /-- BAW. -/
  baw : BitVec 5
  /-- BASD. -/
  basd : Bool
  /-- BALEN. -/
  balen : Word
  /-- BACUR. -/
  bacur : Half
  /-- BACURLEN. -/
  bacurlen : BitVec 5
  /-- BANSTUFF. -/
  banstuff : Word
deriving DecidableEq, Repr

/-- The bit-stream unit (10_state.md R47): its registers and the completed words BS[0..BANW-1]. -/
structure BitStream where
  packer : Packer
  words : List Half
deriving DecidableEq, Repr

/-- The mode-encoder result registers (10_state.md R49). -/
structure MencResult where
  /-- MW. -/
  mw : BitVec 5
  /-- MCOST. -/
  mcost : Word
  /-- MMODE. -/
  mmode : BitVec 3
  /-- MLEN. -/
  mlen : BitVec 16
  /-- MSLOTS, NONE as `none`. -/
  mslots : Vector (Option Word) 6
deriving DecidableEq, Repr

/-- An operation of the host port (20_memory.md R85, 10_state.md R51). -/
inductive HostOp where
  /-- Push a command word: write CMD. -/
  | pushCmd (w : Word)
  /-- Write CTRL. -/
  | writeCtrl (v : Word)
  /-- Read a CSR by number. -/
  | readCsr (n : Nat)
  /-- Read a DMEM word. -/
  | readDmem (a : Nat)
  /-- Write a DMEM word. -/
  | writeDmem (a : Nat) (v : Half)
  /-- Read CMD, which reads 0. -/
  | readCmd
  /-- Read CTRL, which reads 0. -/
  | readCtrl
deriving DecidableEq, Repr

/-- The state (10_state.md R30), then the model's own fields: the parameters, the host's pending
operations and the values its reads returned, and the counter free values are drawn with. -/
structure State where
  /-- S0..S15 (10_state.md R31). -/
  sregs : Vector Word 16
  /-- Q0..Q7 (10_state.md R33). -/
  qregs : Vector Poly 8
  /-- The command FIFO, oldest first: the words pushed and not yet taken (10_state.md R36). -/
  fifo : List Word
  /-- The word the executor has taken and is executing, if one is (10_state.md R36, 70_reset_and_hazards.md R452, R458). -/
  running : Option Word
  /-- The executor is FAULTED: STATUS.FAULT (10_state.md R36, R40). -/
  faulted : Bool
  /-- CAUSE (10_state.md R41). -/
  cause : BitVec 8
  /-- FCMD (10_state.md R42). -/
  fcmd : Word
  /-- CMDCNT (10_state.md R43). -/
  cmdcnt : Word
  /-- The field configuration and tables (10_state.md R44, R45). -/
  field : FieldCfg
  /-- RBUF[0..RCOUNT-1] (10_state.md R46). -/
  rbuf : List Elem
  /-- STATUS.SYNZ (10_state.md R40). -/
  synz : Bool
  /-- STATUS.EUCFAIL (10_state.md R40). -/
  eucfail : Bool
  /-- STATUS.DSTAT (10_state.md R40). -/
  dstat : DStat
  /-- The bit-stream unit (10_state.md R47). -/
  stream : BitStream
  /-- DNFIX (10_state.md R48). -/
  dnfix : BitVec 13
  /-- MW, MCOST, MMODE, MLEN, MSLOTS (10_state.md R49). -/
  menc : MencResult
  /-- DMEM (20_memory.md R80). -/
  dmem : Memory
  /-- The parameters (00_scope.md R10); no step changes them. -/
  cfg : Config
  /-- The host-port operations issued and not completed, oldest first. -/
  hostIn : List HostOp
  /-- The values host reads have returned, oldest first. -/
  hostOut : List Word
  /-- The counter free values are drawn with. -/
  freeCount : Nat
deriving DecidableEq, Repr

/-- Why a step could stop in a model fault. There is no such reason: each fault of the spec
(60_exceptions.md R401) is recorded in the state and the step answers the next state, so nothing raises one
(safe: no behaviour is cut off). -/
inductive Fault
deriving DecidableEq, Repr

/-- Why a step could be refused. -/
inductive Refusal where
  /-- Raised by an arm of `exec` for a command without a meaning yet, by its mnemonic; safe. No arm raises it now. -/
  | notModelled (mnemonic : String)
deriving DecidableEq, Repr

/-- No field configured (10_state.md R44, R52). -/
def FieldCfg.none : FieldCfg where
  valid := false
  size := 0
  m := 0
  gen := 0
  base := 0
  expTab := []
  logTab := []

/-- The bit-stream unit uninitialised (10_state.md R47, R52). -/
def BitStream.reset : BitStream where
  packer := ⟨0, false, 0, 0, 0, 0⟩
  words := []

/-- The mode-encoder results at reset (10_state.md R49, R52). -/
def MencResult.reset : MencResult where
  mw := 0
  mcost := 0
  mmode := 0
  mlen := 0
  mslots := Vector.replicate 6 Option.none

/-- The state right after power-on reset (10_state.md R52, 70_reset_and_hazards.md R450). -/
def State.reset : State where
  sregs := Vector.replicate 16 0
  qregs := Vector.replicate 8 [0]
  fifo := []
  running := none
  faulted := false
  cause := 0
  fcmd := 0
  cmdcnt := 0
  field := FieldCfg.none
  rbuf := []
  synz := false
  eucfail := false
  dstat := .noErrors
  stream := BitStream.reset
  dnfix := 0
  menc := MencResult.reset
  dmem := []
  cfg := defaultConfig
  hostIn := []
  hostOut := []
  freeCount := 0

end Sys2Proof.Machine
end

