-- ==== Sys2Proof/Machine/Ops.lean ====
section
/-! DEFINITION. The named operations over memory and registers, retiring a command, and taking a fault
(spec/20_memory.md, spec/60_exceptions.md R400 to R414). -/

namespace Sys2Proof.Machine

/-! ### Data memory -/

/-- The value listed for address `a`, if any. -/
def Memory.find (m : Memory) (a : Nat) : Option Half :=
  match m with
  | [] => none
  | (b, v) :: rest => if a = b then some v else Memory.find rest a

/-- MemRead (20_memory.md R81): the word at `a`; a word nothing has written holds its power-on value, which is
unspecified (R84). -/
def Memory.read (m : Memory) (a : Nat) : Half :=
  (Memory.find m a).getD (Config.dmemPowerOn a)

/-- MemWrite (20_memory.md R81): the word at `a` becomes `v`. -/
def Memory.write (m : Memory) (a : Nat) (v : Half) : Memory :=
  match m with
  | [] => [(a, v)]
  | (b, u) :: rest =>
    if a < b then (a, v) :: (b, u) :: rest
    else if a = b then (a, v) :: rest
    else (b, u) :: Memory.write rest a v

/-- The words at `a`, `a+1`, ..., `a+n-1` (20_memory.md R82, R87). -/
def Memory.readBlock (m : Memory) (a n : Nat) : List Half :=
  match n with
  | 0 => []
  | n + 1 => Memory.read m a :: Memory.readBlock m (a + 1) n

/-- Write the words `vs` to `a`, `a+1`, ... in that order (20_memory.md R87). -/
def Memory.writeBlock (m : Memory) (a : Nat) (vs : List Half) : Memory :=
  match vs with
  | [] => m
  | v :: rest => Memory.writeBlock (Memory.write m a v) (a + 1) rest

/-- The canonical form: addresses strictly rising, so that one list stands for one set of written words. -/
def Memory.wf : Memory → Bool
  | [] => true
  | [_] => true
  | (a, _) :: (b, v) :: rest => decide (a < b) && Memory.wf ((b, v) :: rest)

/-- Every listed address lies below `n`, the number of DMEM words (20_memory.md R80). -/
def Memory.within (n : Nat) (m : Memory) : Bool :=
  m.all (fun c => decide (c.1 < n))

/-! ### Registers -/

/-- S[i] (00_scope.md R12). -/
def State.sreg (s : State) (i : SReg) : Word :=
  s.sregs.get i

/-- S[i] <- v (00_scope.md R12). -/
def State.setS (s : State) (i : SReg) (v : Word) : State :=
  { s with sregs := s.sregs.set i v }

/-- Q[i] (00_scope.md R12). -/
def State.qreg (s : State) (i : QReg) : Poly :=
  s.qregs.get i

/-- Q[i] <- p (00_scope.md R12). -/
def State.setQ (s : State) (i : QReg) (p : Poly) : State :=
  { s with qregs := s.qregs.set i p }

/-- The state with another DMEM. -/
def State.setMem (s : State) (m : Memory) : State :=
  { s with dmem := m }

/-- The state with another bit-stream unit. -/
def State.setStream (s : State) (b : BitStream) : State :=
  { s with stream := b }

/-- The state with another root buffer, RCOUNT its length (10_state.md R46). -/
def State.setRbuf (s : State) (r : List Elem) : State :=
  { s with rbuf := r }

/-- The state with DNFIX written (10_state.md R48). -/
def State.setDnfix (s : State) (n : Nat) : State :=
  { s with dnfix := BitVec.ofNat 13 n }

/-- The state with other mode-encoder results (10_state.md R49). -/
def State.setMenc (s : State) (r : MencResult) : State :=
  { s with menc := r }

/-- RCOUNT (10_state.md R46). -/
def State.rcount (s : State) : Nat :=
  s.rbuf.length

/-- BANW (10_state.md R47). -/
def State.banw (s : State) : Nat :=
  s.stream.words.length

/-- S[rd] <- n for a count or degree `n`. -/
def State.setCount (s : State) (i : SReg) (n : Nat) : State :=
  s.setS i (BitVec.ofNat 32 n)

/-- S[rd] <- x for a field element `x`, zero-extended (10_state.md R31). -/
def State.setElem (s : State) (i : SReg) (x : Elem) : State :=
  s.setS i (x.setWidth 32)

/-- The executor's state (10_state.md R36). -/
inductive ExecState where
  | idle
  | busy
  | faulted
deriving DecidableEq, Repr

/-- The executor's state (10_state.md R36): BUSY while a command executes or the FIFO holds a word. -/
def State.executor (s : State) : ExecState :=
  if s.faulted then .faulted else if s.running = none ∧ s.fifo = [] then .idle else .busy

/-! ### Faults and retirement -/

/-- The fault causes (60_exceptions.md R401). -/
inductive Cause where
  | illegalCommand
  | fieldNotConfigured
  | configError
  | operandRange
  | zeroInverse
  | memRange
  | polyOverflow
  | bsOverflow
  | baConfig
  | mencConfig
deriving DecidableEq, Repr

/-- The code of a cause in CAUSE (60_exceptions.md R401). -/
def causeCode : Cause → BitVec 8
  | .illegalCommand => 0x01
  | .fieldNotConfigured => 0x02
  | .configError => 0x03
  | .operandRange => 0x04
  | .zeroInverse => 0x05
  | .memRange => 0x06
  | .polyOverflow => 0x07
  | .bsOverflow => 0x08
  | .baConfig => 0x09
  | .mencConfig => 0x0A

/-- Taking a fault (60_exceptions.md R411): CAUSE gets the code, FCMD the command word, the executor is
FAULTED; the FIFO and CMDCNT stay. -/
def takeFault (w : Word) (c : Cause) (s : State) : State :=
  { s with cause := causeCode c, fcmd := w, faulted := true }

/-- Leaving the state FAULTED (60_exceptions.md R414): CAUSE becomes 0, FCMD stays, and the executor goes on with
the oldest FIFO word or is IDLE. -/
def clearFault (s : State) : State :=
  if s.faulted then { s with cause := 0, faulted := false } else s

/-- Retirement (60_exceptions.md R412, 10_state.md R43): CMDCNT counts the command modulo 2^32. -/
def retire (s : State) : State :=
  { s with cmdcnt := s.cmdcnt + 1 }

/-- End the command `i` begun in state `s`: with a result it retires (60_exceptions.md R412); with a cause it
faults and leaves `s` but for the recording (R410, R411). FCMD gets the command's word. -/
def finish (i : Instr) (s : State) : Except Cause State → Host.Outcome State Fault Refusal
  | .ok t => .next (retire t)
  | .error c => .next (takeFault (encode i) c s)

end Sys2Proof.Machine
end

