-- ==== Sys2Proof/Machine/BitPacker.lean ====
section
/-! DEFINITION. The bit primitives and the padding of the bit-stream unit (spec/45_bitappender.md R292, R294, R297).

PUSH and BIT work on the unit's registers and hand out the words they complete; `BitStream.feed` appends those to BS and
raises BS_OVERFLOW where more than BS_WORDS would be there. A command that overflows has no effect at all (R293,
60_exceptions.md R410), so checking once, after the command's bits, gives what the check inside each PUSH gives. -/

namespace Sys2Proof.Machine

/-- The registers of a new stream of width `w` (R291). -/
def Packer.init (w : BitVec 5) (sd : Bool) : Packer :=
  ⟨w, sd, 0, 0, 0, 0⟩

/-- One bit as a 16-bit value. -/
def bitHalf (y : Bool) : Half :=
  BitVec.ofNat 16 y.toNat

/-- PUSH (R292): shift the bit `y` into the partial word; the completed word, if the word is full. -/
def Packer.push (p : Packer) (y : Bool) : Packer × List Half :=
  let cur := (p.bacur <<< 1) ||| bitHalf y
  if p.bacurlen + 1 = p.baw then
    ({ p with bacur := 0, bacurlen := 0, balen := p.balen + 1 }, [cur])
  else
    ({ p with bacur := cur, bacurlen := p.bacurlen + 1, balen := p.balen + 1 }, [])

/-- R292's test for a stuffed bit: stuffing is on, BAW - 1 bits are present and all equal. -/
def Packer.mustStuff (p : Packer) : Bool :=
  !p.basd && decide (p.bacurlen.toNat + 1 = p.baw.toNat)
    && decide (p.bacur.toNat = 0 ∨ p.bacur.toNat + 1 = 2 ^ (p.baw.toNat - 1))

/-- BIT's first half (R292): where the test holds, push the complement of the last bit and count it. -/
def Packer.stuff (p : Packer) : Packer × List Half :=
  if p.mustStuff then
    let d := p.push (!p.bacur.getLsbD 0)
    ({ d.1 with banstuff := d.1.banstuff + 1 }, d.2)
  else (p, [])

/-- BIT (R292): the stuffed bit, if one is due, then the data bit. -/
def Packer.bit (p : Packer) (x : Bool) : Packer × List Half :=
  let d := p.stuff
  let e := d.1.push x
  (e.1, d.2 ++ e.2)

/-- BIT for every bit of a sequence, in order; all words completed. -/
def Packer.run (p : Packer) (bits : List Bool) : Packer × List Half :=
  match bits with
  | [] => (p, [])
  | x :: rest =>
    let d := p.bit x
    let e := Packer.run d.1 rest
    (e.1, d.2 ++ e.2)

/-- Append words to BS, at most BS_WORDS in all (R292). -/
def BitStream.store (b : BitStream) (p : Packer) (ws : List Half) : Except Cause BitStream :=
  if ws = [] ∨ b.words.length + ws.length ≤ Config.bsWords then .ok ⟨p, b.words ++ ws⟩ else .error .bsOverflow

/-- BIT for every bit of a sequence (R292, R293). -/
def BitStream.feed (b : BitStream) (bits : List Bool) : Except Cause BitStream :=
  let d := b.packer.run bits
  b.store d.1 d.2

/-- BAPAD on a stream of width `w` (R297): nothing where the last word is whole; else fill with 1 bits, and end an
all-ones word in 0 where stuffing is on. -/
def BitStream.pad (b : BitStream) : Except Cause BitStream :=
  let p := b.packer
  if p.bacurlen = 0 then .ok b
  else
    let k := p.baw.toNat - p.bacurlen.toNat
    let v := p.bacur.toNat * 2 ^ k + (2 ^ k - 1)
    let v := if p.basd = false ∧ v + 1 = 2 ^ p.baw.toNat then v - 1 else v
    b.store { p with balen := p.balen + BitVec.ofNat 32 k, bacur := 0, bacurlen := 0 } [BitVec.ofNat 16 v]

/-- bits_n(v): the low `n` bits of `v`, most significant first (00_scope.md R14). -/
def natBits (n v : Nat) : List Bool :=
  match n with
  | 0 => []
  | n + 1 => v.testBit n :: natBits n v

end Sys2Proof.Machine
end

