-- ==== Sys2Proof/Machine/FieldArith.lean ====
section
/-! DEFINITION. Construction and arithmetic of GF(2^m) (spec/41_field.md R151 to R166). -/

namespace Sys2Proof.Machine

/-- EXP[i] (10_state.md R45); an entry no FCFG has written is unspecified. -/
def expAt (F : FieldCfg) (i : Nat) : Elem :=
  (F.expTab[i]?).getD (Config.unwrittenExp i)

/-- LOG[x] (10_state.md R45); an entry no FCFG has written, LOG[0] among them, is unspecified. -/
def logAt (F : FieldCfg) (x : Elem) : Nat :=
  if x = 0 then (Config.unwrittenLog 0).toNat
  else ((F.logTab[x.toNat - 1]?).getD (Config.unwrittenLog x.toNat)).toNat

/-- FSIZE - 1, the order of the multiplicative group. -/
def FieldCfg.order (F : FieldCfg) : Nat :=
  F.size.toNat - 1

/-- alpha^i = EXP[i mod (FSIZE - 1)] (41_field.md R166). -/
def alphaPow (F : FieldCfg) (i : Nat) : Elem :=
  expAt F (i % F.order)

/-- Field multiplication (41_field.md R157). -/
def gmul (F : FieldCfg) (x y : Elem) : Elem :=
  if x = 0 ∨ y = 0 then 0 else expAt F ((logAt F x + logAt F y) % F.order)

/-- The inverse of a nonzero element (41_field.md R159). -/
def ginv (F : FieldCfg) (x : Elem) : Elem :=
  expAt F (F.order - logAt F x)

/-- pow(x, k) for a nonzero element (41_field.md R166). -/
def gpow (F : FieldCfg) (x : Elem) (k : Nat) : Elem :=
  if k = 0 then 1 else expAt F (logAt F x * k % F.order)

/-! ### Construction -/

/-- The log2 of a legal size (41_field.md R151): `some m` when size = 2^m with 1 <= m <= FIELD_MAX_M. -/
def sizeLog (size : Nat) : Option Nat :=
  (List.range' 1 Config.fieldMaxM).find? (fun m => decide (2 ^ m = size))

/-- One step of R154's loop: double, and reduce where the value has reached the size. -/
def doubleStep (size gen x : Nat) : Nat :=
  if size ≤ 2 * x then (2 * x ^^^ gen) &&& (size - 1) else 2 * x

/-- R154's loop: the next `n` entries of EXP from the running value `x`. -/
def expFrom (size gen : Nat) : Nat → Nat → List Nat
  | 0, _ => []
  | n + 1, x => x :: expFrom size gen n (doubleStep size gen x)

/-- EXP[0..size-1] (R154). -/
def expTable (size gen : Nat) : List Nat :=
  expFrom size gen size 1

/-- R154's two checks: EXP[i] is not 1 for i in 1..size-2, and EXP[size-1] is 1. -/
def primitiveTable (size : Nat) (t : List Nat) : Bool :=
  ((t.drop 1).take (size - 2)).all (fun x => x != 1) && t[size - 1]? == some 1

/-- R154's last loop over EXP[0..size-2], `LOG[EXP[i]] <- i`, on the entries LOG[1..size-1]. -/
def logFrom (i : Nat) (exps : List Nat) (log : List Elem) : List Elem :=
  match exps with
  | [] => log
  | x :: rest => logFrom (i + 1) rest (log.set (x - 1) (BitVec.ofNat 12 i))

/-- LOG[1..size-1] (R154); every entry is written when the checks of R154 pass. -/
def logTable (size : Nat) (t : List Nat) : List Elem :=
  logFrom 0 (t.take (size - 1)) (List.replicate (size - 1) 0)

/-- The field FCFG builds from its operands, or `none` where a check of R151 to R154 fails. -/
def buildField (size gen base : Nat) : Option FieldCfg :=
  match sizeLog size with
  | none => none
  | some m =>
    if gen < size ∨ 2 * size ≤ gen then none
    else if size - 2 < base then none
    else if primitiveTable size (expTable size gen) then
      some
        { valid := true
          size := BitVec.ofNat 13 size
          m := BitVec.ofNat 4 m
          gen := BitVec.ofNat 14 gen
          base := BitVec.ofNat 12 base
          expTab := (expTable size gen).map (BitVec.ofNat 12)
          logTab := logTable size (expTable size gen) }
    else none

end Sys2Proof.Machine
end

