-- ==== Sys2Proof/Machine/Operands.lean ====
section
/-! DEFINITION. The operand forms and their checks: the field requirement, element operands, parity counts, block
operands and the words read through them (spec/20_memory.md R81 to R83, spec/41_field.md R162, R168). -/

namespace Sys2Proof.Machine

/-- End with `c` where the condition fails. -/
def check (ok : Prop) [Decidable ok] (c : Cause) : Except Cause Unit :=
  if ok then .ok () else .error c

/-- The field, which must be configured (41_field.md R168). -/
def needField (s : State) : Except Cause FieldCfg :=
  if s.field.valid then .ok s.field else .error .fieldNotConfigured

/-- An element operand (41_field.md R162): a register value less than FSIZE. -/
def elemOperand (F : FieldCfg) (v : Word) : Except Cause Elem :=
  if v.toNat < F.size.toNat then .ok (v.setWidth 12) else .error .operandRange

/-- A nonzero element, as GINV, GDIV and GLOG need it (41_field.md R159, R161, R164). -/
def nonzeroElem (x : Elem) : Except Cause Elem :=
  if x = 0 then .error .zeroInverse else .ok x

/-- A parity count of RSGEN, RSSYN and RSDEC: at most FSIZE - 1 (43_rs_encoder.md R231, 44_rs_decoder.md R250). -/
def parityOperand (F : FieldCfg) (v : Word) : Except Cause Nat :=
  if F.order < v.toNat then .error .operandRange else .ok v.toNat

/-- A single word address (20_memory.md R81). -/
def addrOperand (s : State) (v : Word) : Except Cause Nat :=
  if v.toNat < s.cfg.dmemWords then .ok v.toNat else .error .memRange

/-- The block of `n` words at `a` lies in DMEM (20_memory.md R82), without wrap-around. -/
def blockInRange (s : State) (a n : Nat) : Prop :=
  n = 0 ∨ a + n ≤ s.cfg.dmemWords

/-- The range check of a block operand (20_memory.md R82). -/
def checkBlock (s : State) (a n : Nat) : Except Cause Unit :=
  if n = 0 ∨ a + n ≤ s.cfg.dmemWords then .ok () else .error .memRange

/-- Words read as field elements (20_memory.md R83): each whole word must be less than FSIZE. -/
def elemWords (F : FieldCfg) (ws : List Half) : Except Cause (List Elem) :=
  if ws.all (fun v => decide (v.toNat < F.size.toNat)) then .ok (ws.map (fun v => v.setWidth 12))
  else .error .operandRange

/-- The block of field elements at `a` (20_memory.md R82, R83). -/
def elemBlock (F : FieldCfg) (s : State) (a n : Nat) : Except Cause (List Elem) :=
  elemWords F (Memory.readBlock s.dmem a n)

/-- Words read as text bytes (20_memory.md R83): each less than 256. -/
def textWords (ws : List Half) : Except Cause (List Nat) :=
  if ws.all (fun v => decide (v.toNat < 256)) then .ok (ws.map (fun v => v.toNat))
  else .error .operandRange

/-- Elements as DMEM words, zero-extended (20_memory.md R83). -/
def elemHalves (xs : List Elem) : List Half :=
  xs.map (fun x => x.setWidth 16)

end Sys2Proof.Machine
end

