-- ==== Sys2Proof/Machine/BitStreamCmd.lean ====
section
/-! DEFINITION. The meanings of the bit-stream commands (spec/45_bitappender.md). None needs a field. -/

namespace Sys2Proof.Machine

/-- BAINIT (R291). -/
def execBainit (rw : SReg) (sd : Bool) (s : State) : Host.Outcome State Fault Refusal :=
  finish (.bainit rw sd) s do
    let W := (s.sreg rw).toNat
    check (2 ≤ W ∧ W ≤ 16) .baConfig
    return s.setStream ⟨Packer.init (BitVec.ofNat 5 W) sd, []⟩

/-- BAAPP (R293). -/
def execBaapp (rv rn : SReg) (s : State) : Host.Outcome State Fault Refusal :=
  finish (.baapp rv rn) s do
    let v := (s.sreg rv).toNat
    let n := (s.sreg rn).toNat
    check (s.stream.packer.baw ≠ 0) .baConfig
    check (n ≤ 32) .operandRange
    let b ← s.stream.feed (natBits n v)
    return s.setStream b

/-- BAPAD (R297). -/
def execBapad (s : State) : Host.Outcome State Fault Refusal :=
  finish .bapad s do
    check (s.stream.packer.baw ≠ 0) .baConfig
    let b ← s.stream.pad
    return s.setStream b

/-- BAST (R299). -/
def execBast (rd raddr : SReg) (s : State) : Host.Outcome State Fault Refusal :=
  finish (.bast rd raddr) s do
    let a := (s.sreg raddr).toNat
    checkBlock s a s.banw
    return (s.setMem (Memory.writeBlock s.dmem a s.stream.words)).setCount rd s.banw

end Sys2Proof.Machine
end

