-- ==== Sys2Proof/Machine/FieldCmd.lean ====
section
/-! DEFINITION. The meanings of the field commands (spec/41_field.md). -/

namespace Sys2Proof.Machine

/-- FCFG's commit (R155): another field, every polynomial register `[0]`, RCOUNT 0. -/
def commitField (F : FieldCfg) (s : State) : State :=
  { s with field := F, qregs := Vector.replicate 8 [0], rbuf := [] }

/-- FCFG (R150 to R155): where the checks pass it commits the field and retires; otherwise it leaves no field
configured and faults with CONFIG_ERROR (60_exceptions.md R410, the one exception to the no-effect rule). -/
def execFcfg (rsize rgen rbase : SReg) (s : State) : Host.Outcome State Fault Refusal :=
  match buildField (s.sreg rsize).toNat (s.sreg rgen).toNat (s.sreg rbase).toNat with
  | some F => finish (.fcfg rsize rgen rbase) s (.ok (commitField F s))
  | none => finish (.fcfg rsize rgen rbase) (commitField FieldCfg.none s) (.error .configError)

/-- GADD (R156). -/
def execGadd (rd rx ry : SReg) (s : State) : Host.Outcome State Fault Refusal :=
  finish (.gadd rd rx ry) s do
    let F ← needField s
    let x ← elemOperand F (s.sreg rx)
    let y ← elemOperand F (s.sreg ry)
    return s.setElem rd (x ^^^ y)

/-- GMUL (R157). -/
def execGmul (rd rx ry : SReg) (s : State) : Host.Outcome State Fault Refusal :=
  finish (.gmul rd rx ry) s do
    let F ← needField s
    let x ← elemOperand F (s.sreg rx)
    let y ← elemOperand F (s.sreg ry)
    return s.setElem rd (gmul F x y)

/-- GINV (R159). -/
def execGinv (rd rx : SReg) (s : State) : Host.Outcome State Fault Refusal :=
  finish (.ginv rd rx) s do
    let F ← needField s
    let x ← elemOperand F (s.sreg rx)
    let x ← nonzeroElem x
    return s.setElem rd (ginv F x)

/-- GDIV (R161). -/
def execGdiv (rd rx ry : SReg) (s : State) : Host.Outcome State Fault Refusal :=
  finish (.gdiv rd rx ry) s do
    let F ← needField s
    let x ← elemOperand F (s.sreg rx)
    let y ← elemOperand F (s.sreg ry)
    let y ← nonzeroElem y
    return s.setElem rd (gmul F x (ginv F y))

/-- GEXP (R163): any 32-bit exponent. -/
def execGexp (rd re : SReg) (s : State) : Host.Outcome State Fault Refusal :=
  finish (.gexp rd re) s do
    let F ← needField s
    return s.setElem rd (alphaPow F (s.sreg re).toNat)

/-- GLOG (R164). -/
def execGlog (rd rx : SReg) (s : State) : Host.Outcome State Fault Refusal :=
  finish (.glog rd rx) s do
    let F ← needField s
    let x ← elemOperand F (s.sreg rx)
    let x ← nonzeroElem x
    return s.setCount rd (logAt F x)

end Sys2Proof.Machine
end

