-- ==== Sys2Proof/Machine/AztecDp.lean ====
section
/-! DEFINITION. The Aztec mode encoder's dynamic program (spec/46_mode_encoder.md R320, R332, R340 to R356), for any
value of the parameter AZTEC_TABLES (R322). -/

namespace Sys2Proof.Machine

/-- A mode (R320): one of the five character modes, or the binary-run state. -/
inductive Mode where
  | chr (m : CharMode)
  | bin
deriving DecidableEq, Repr

/-- The number of a mode (R320). -/
def Mode.index : Mode → Fin 6
  | .chr m => m.index.castSucc
  | .bin => 5

/-- The modes in the order of their numbers (R320, R344). -/
def Mode.all : List Mode := CharMode.all.map .chr ++ [.bin]

/-- The open binary run of slot B (R340): its return mode, its length N and where its length field starts. -/
structure BinRun where
  ret : CharMode
  run : Nat
  lenpos : Nat
deriving DecidableEq, Repr

/-- A filled slot (R340); `binRun` is held by slot B only. -/
structure Slot where
  bits : List Bool
  cost : Nat
  binRun : Option BinRun
deriving DecidableEq, Repr

/-- The six slots of one prefix length (R340), EMPTY as `none`. -/
abbrev Bank := Vector (Option Slot) 6

/-- A bank of EMPTY slots (R341). -/
def emptyBank : Bank := Vector.replicate 6 none

/-- The slot best[k][m] (R340). -/
def bankGet (b : Bank) (m : Mode) : Option Slot := b.get m.index

/-- The initial bank best[0] (R341): the empty encoding in Upper. -/
def initialSlot : Slot := ⟨[], 0, none⟩

/-- best[0] (R341). -/
def initialBank : Bank := emptyBank.set (Mode.chr .upper).index (some initialSlot)

/-- cost(bits) = stufflen_W(bits) (R342): the value BALEN has after BAINIT with width `w` and stuffing enabled and BIT of
every bit. -/
def stuffedCost (w : BitVec 5) (bits : List Bool) : Nat :=
  ((Packer.init w false).run bits).1.balen.toNat

/-- A sequence of codes, each most significant bit first (R321, R329). -/
def codeBits (cs : List Code) : List Bool :=
  cs.flatMap (fun c => natBits c.width c.code)

/-- The length field of a binary run of N bytes (R332). -/
def lengthField (n : Nat) : List Bool :=
  if n ≤ 31 then natBits 5 n else natBits 5 0 ++ natBits 11 (n - 31)

/-- The bits of the run so far with the length field rewritten for N = run + 1 (R345). -/
def rewriteLength (bits : List Bool) (r : BinRun) : List Bool :=
  bits.take r.lenpos ++ lengthField (r.run + 1) ++ bits.drop (r.lenpos + (lengthField r.run).length)

/-- A candidate of one relaxation: how many characters it consumes (1 or 2), the slot it goes to, its bits, and the open
run where that slot is B. -/
structure Candidate where
  two : Bool
  mode : Mode
  bits : List Bool
  binRun : Option BinRun
deriving DecidableEq, Repr

/-- Edge E4, continue the binary run (R345). -/
def edgeContinue (src : Slot) (ch : Nat) : List Candidate :=
  match src.binRun with
  | none => []
  | some r =>
    if r.run < Config.binMax then
      [⟨false, .bin, rewriteLength src.bits r ++ natBits 8 ch, some { r with run := r.run + 1 }⟩]
    else []

/-- Edge E1, latch or stay and encode (R346). -/
def edgeLatch (T : AztecTables) (A : CharMode) (bits : List Bool) (ch : Nat) : List Candidate :=
  CharMode.all.filterMap (fun b =>
    (aztecChar T b ch).map (fun c => ⟨false, .chr b, bits ++ codeBits (aztecLatch T A b ++ [c]), none⟩))

/-- The slot a shifted character goes to (R347): the source slot itself. From slot B the current mode A is the return
mode, so the encoding ends latched in A. -/
def edgeShift (T : AztecTables) (A : CharMode) (bits : List Bool) (ch : Nat) : List Candidate :=
  CharMode.all.filterMap (fun x =>
    match aztecShift T A x, aztecChar T x ch with
    | some sh, some c => some ⟨false, .chr A, bits ++ codeBits [sh, c], none⟩
    | _, _ => none)

/-- Edge E3, start a binary run (R348), from the modes of BS_FROM in the order of `aztecBsFrom` (log entry 24). -/
def edgeBinary (T : AztecTables) (A : CharMode) (bits : List Bool) (ch : Nat) : List Candidate :=
  (aztecBsFrom T).map (fun r =>
    let pre := bits ++ codeBits (aztecLatch T A r ++ [T.bsCode])
    ⟨false, .bin, pre ++ lengthField 1 ++ natBits 8 ch, some ⟨r, 1, pre.length⟩⟩)

/-- Edge E5, the two-character pair (R349): latched to Punct, then shifted to it. The pair code is emitted at the width the
parameter gives Punct codes, which is R349's 5 under the default: DESIGN CHOICE for any other width, log entry 23. -/
def edgePair (T : AztecTables) (A : CharMode) (bits : List Bool) (ch : Nat) (next : Option Nat) : List Candidate :=
  match next.bind (aztecPair T ch) with
  | none => []
  | some pc =>
    let c : Code := ⟨pc, T.widths.get CharMode.punct.index⟩
    ⟨true, .chr .punct, bits ++ codeBits (aztecLatch T A .punct ++ [c]), none⟩ ::
      (match aztecShift T A .punct with
       | some sh => [⟨true, .chr A, bits ++ codeBits [sh, c], none⟩]
       | none => [])

/-- All candidates from the source slot `m` holding `src`, in the order of R344: E4 (from B only), E1, E2, E3, E5. -/
def candidates (T : AztecTables) (m : Mode) (src : Slot) (ch : Nat) (next : Option Nat) : List Candidate :=
  let A := match m with
    | .chr a => a
    | .bin => (src.binRun.map (fun r => r.ret)).getD .upper
  (if m = .bin then edgeContinue src ch else []) ++ edgeLatch T A src.bits ch ++ edgeShift T A src.bits ch ++
    edgeBinary T A src.bits ch ++ edgePair T A src.bits ch next

/-- RELAX (R343): the candidate replaces the slot only where the slot is EMPTY or the cost is strictly less. -/
def relax (w : BitVec 5) (b : Bank) (c : Candidate) : Bank :=
  let cost := stuffedCost w c.bits
  match bankGet b c.mode with
  | none => b.set c.mode.index (some ⟨c.bits, cost, c.binRun⟩)
  | some old => if cost < old.cost then b.set c.mode.index (some ⟨c.bits, cost, c.binRun⟩) else b

/-- RELAX into best[k+1] or best[k+2] (R343, R349). -/
def relaxInto (w : BitVec 5) (bs : Bank × Bank) (c : Candidate) : Bank × Bank :=
  if c.two then (bs.1, relax w bs.2 c) else (relax w bs.1 c, bs.2)

/-- All relaxations from position k (R344): best[k] is `b0`, and `bs` holds best[k+1] and best[k+2]. -/
def relaxPosition (T : AztecTables) (w : BitVec 5) (b0 : Bank) (bs : Bank × Bank) (ch : Nat) (next : Option Nat) :
    Bank × Bank :=
  Mode.all.foldl (fun bs m =>
    match bankGet b0 m with
    | none => bs
    | some src => (candidates T m src ch next).foldl (relaxInto w) bs) bs

/-- The positions left (R344): `b0` is best[k] and `b1` is best[k+1] so far; the result is best[n]. -/
def runDp (T : AztecTables) (w : BitVec 5) (text : List Nat) (b0 b1 : Bank) : Bank :=
  match text with
  | [] => b0
  | ch :: rest =>
    let bs := relaxPosition T w b0 (b1, emptyBank) ch rest.head?
    runDp T w rest bs.1 bs.2

/-- best[n] for the text (R340 to R349). -/
def finalBank (T : AztecTables) (w : BitVec 5) (text : List Nat) : Bank :=
  runDp T w text initialBank emptyBank

/-- The final selection (R356): the filled slot of least cost, ties to the lowest mode number. -/
def selectSlot (b : Bank) : Option (Mode × Slot) :=
  Mode.all.foldl (fun best m =>
    match best, bankGet b m with
    | best, none => best
    | none, some sl => some (m, sl)
    | some (m0, sl0), some sl => if sl.cost < sl0.cost then some (m, sl) else some (m0, sl0)) none

/-- The slot MENC takes (R356). Slot B of best[n] is filled for every n >= 1 (R348) and slot U of best[0], so there
always is one and the value for `none` is never taken. -/
def chosenSlot (b : Bank) : Mode × Slot :=
  (selectSlot b).getD (.chr .upper, initialSlot)

end Sys2Proof.Machine
end

