-- ==== Sys2Proof/Machine/ModeEncoder.lean ====
section
/-! DEFINITION. The meanings of the mode-encoder commands (spec/46_mode_encoder.md R350 to R354). -/

namespace Sys2Proof.Machine

/-- The result registers MENC writes (R350, R352). -/
def mencResult (w : BitVec 5) (cost : Word) (m : Mode) (n : Nat) (b : Bank) : MencResult where
  mw := w
  mcost := cost
  mmode := BitVec.ofNat 3 m.index
  mlen := BitVec.ofNat 16 n
  mslots := b.map (fun sl => sl.map (fun x => BitVec.ofNat 32 x.cost))

/-- MENC (R350 to R353). -/
def execMenc (rd raddr rn rw : SReg) (s : State) : Host.Outcome State Fault Refusal :=
  finish (.menc rd raddr rn rw) s do
    let ta := (s.sreg raddr).toNat
    let n := (s.sreg rn).toNat
    let W := (s.sreg rw).toNat
    check (W = 6 ∨ W = 8 ∨ W = 10 ∨ W = 12) .mencConfig
    check (n ≤ 65535) .operandRange
    checkBlock s ta n
    let t ← textWords (Memory.readBlock s.dmem ta n)
    let w := BitVec.ofNat 5 W
    let bank := finalBank s.cfg.aztec w t
    let best := chosenSlot bank
    let b ← (BitStream.mk (Packer.init w false) []).feed best.2.bits
    let cost := b.packer.balen
    let padded ← b.pad
    return ((s.setStream padded).setMenc (mencResult w cost best.1 n bank)).setS rd cost

/-- MSLOT (R354): the cost of a final slot, NONE as 0xFFFFFFFF. -/
def execMslot (rd rm : SReg) (s : State) : Host.Outcome State Fault Refusal :=
  finish (.mslot rd rm) s
    (match s.menc.mslots[(s.sreg rm).toNat]? with
     | none => .error .operandRange
     | some c => .ok (s.setS rd (c.getD 0xFFFFFFFF)))

end Sys2Proof.Machine
end

