-- ==== Sys2Proof/Machine/PolyArith.lean ====
section
/-! DEFINITION. Polynomial algebra over the configured field (spec/42_polynomial.md R180 to R199). -/

namespace Sys2Proof.Machine

/-- norm(c) (42_polynomial.md R182): drop leading zeros, leaving `[0]` when all are zero. -/
def norm (c : List Elem) : Poly :=
  match c with
  | [] => [0]
  | x :: rest => if x = 0 then norm rest else x :: rest

/-- deg(p) = len(p) - 1 for a polynomial in normal form (R181). -/
def deg (p : Poly) : Nat :=
  p.length - 1

/-- lead(p), the first coefficient (R181). -/
def lead (p : Poly) : Elem :=
  p.headD 0

/-- coef(p, k), the coefficient of x^k, 0 above the degree (00_scope.md R13, R195). -/
def coef (p : Poly) (k : Nat) : Elem :=
  if k ≤ deg p then (p[deg p - k]?).getD 0 else 0

/-- Add `q` into `r` from position `off` on (the inner loops of R187 and R188). -/
def xorAt (off : Nat) (r q : List Elem) : List Elem :=
  match off, r, q with
  | _, [], _ => []
  | off + 1, x :: r, q => x :: xorAt off r q
  | 0, r, [] => r
  | 0, x :: r, y :: q => (x ^^^ y) :: xorAt 0 r q

/-- PADD (R187). -/
def padd (p q : Poly) : Poly :=
  if p.length < q.length then norm (xorAt (q.length - p.length) q p)
  else norm (xorAt (p.length - q.length) p q)

/-- Every coefficient multiplied by `k` (R189). -/
def scaleCoeffs (F : FieldCfg) (p : Poly) (k : Elem) : List Elem :=
  p.map (fun c => gmul F c k)

/-- PSCAL (R189). -/
def pscal (F : FieldCfg) (p : Poly) (k : Elem) : Poly :=
  if k = 0 then [0] else scaleCoeffs F p k

/-- R188's loop over i from `i`: add p[i] · q into r at position i, for the coefficients of `p` left. -/
def mulInto (F : FieldCfg) (i : Nat) (p q : List Elem) (r : List Elem) : List Elem :=
  match p with
  | [] => r
  | c :: rest => mulInto F (i + 1) rest q (xorAt i r (q.map (fun y => gmul F c y)))

/-- PMUL without its length check (R188). -/
def pmul (F : FieldCfg) (p q : Poly) : Poly :=
  if p = [0] ∨ q = [0] then [0]
  else norm (mulInto F 0 p q (List.replicate (p.length + q.length - 1) 0))

/-- PSHIFT without its length check (R190). -/
def pshift (p : Poly) (k : Nat) : Poly :=
  if p = [0] then [0] else p ++ List.replicate k 0

/-- PMONO without its checks (R186). -/
def pmono (d : Nat) (k : Elem) : Poly :=
  if k = 0 then [0] else k :: List.replicate d 0

/-- PEVAL by Horner's rule (R191); the sequence need not be in normal form. -/
def peval (F : FieldCfg) (p : List Elem) (x : Elem) : Elem :=
  p.foldl (fun acc c => gmul F acc x ^^^ c) 0

/-- The roots PZEROS lists, in order of increasing exponent (R199). -/
def pzeros (F : FieldCfg) (p : Poly) : List Elem :=
  ((List.range F.order).map (expAt F)).filter (fun x => peval F p x == 0)

/-- R230's product, the factors `from`, ..., multiplied onto `g` from left to right. -/
def genProduct (F : FieldCfg) (i : Nat) (n : Nat) (g : Poly) : Poly :=
  match n with
  | 0 => g
  | n + 1 => genProduct F (i + 1) n (pmul F g [1, alphaPow F (F.base.toNat + i)])

/-- The generator polynomial of parity count `P` (43_rs_encoder.md R230). -/
def genPoly (F : FieldCfg) (P : Nat) : Poly :=
  genProduct F 0 P [1]

end Sys2Proof.Machine
end

