-- ==== Sys2Proof/Machine/Polynomial.lean ====
section
/-! DEFINITION. The meanings of the polynomial commands (spec/42_polynomial.md); R183 holds for each. -/

namespace Sys2Proof.Machine

/-- PZERO (R184). -/
def execPzero (qd : QReg) (s : State) : Host.Outcome State Fault Refusal :=
  finish (.pzero qd) s do
    let _ ← needField s
    return s.setQ qd [0]

/-- PONE (R185). -/
def execPone (qd : QReg) (s : State) : Host.Outcome State Fault Refusal :=
  finish (.pone qd) s do
    let _ ← needField s
    return s.setQ qd [1]

/-- PMONO (R186): the degree is checked only where the coefficient is not 0. -/
def execPmono (qd : QReg) (rdeg rk : SReg) (s : State) : Host.Outcome State Fault Refusal :=
  finish (.pmono qd rdeg rk) s do
    let F ← needField s
    let k ← elemOperand F (s.sreg rk)
    check (k = 0 ∨ (s.sreg rdeg).toNat < Config.polyMaxLen) .polyOverflow
    return s.setQ qd (pmono (s.sreg rdeg).toNat k)

/-- PADD (R187). -/
def execPadd (qd qs : QReg) (s : State) : Host.Outcome State Fault Refusal :=
  finish (.padd qd qs) s do
    let _ ← needField s
    return s.setQ qd (padd (s.qreg qd) (s.qreg qs))

/-- PMUL (R188). -/
def execPmul (qd qx qy : QReg) (s : State) : Host.Outcome State Fault Refusal :=
  finish (.pmul qd qx qy) s do
    let F ← needField s
    let p := s.qreg qx
    let q := s.qreg qy
    check ((p = [0] ∨ q = [0]) ∨ p.length + q.length - 1 ≤ Config.polyMaxLen) .polyOverflow
    return s.setQ qd (pmul F p q)

/-- PSCAL (R189). -/
def execPscal (qd : QReg) (rk : SReg) (s : State) : Host.Outcome State Fault Refusal :=
  finish (.pscal qd rk) s do
    let F ← needField s
    let k ← elemOperand F (s.sreg rk)
    return s.setQ qd (pscal F (s.qreg qd) k)

/-- PSHIFT (R190): the length is checked without wrap-around. -/
def execPshift (qd : QReg) (rk : SReg) (s : State) : Host.Outcome State Fault Refusal :=
  finish (.pshift qd rk) s do
    let _ ← needField s
    let p := s.qreg qd
    check (p = [0] ∨ p.length + (s.sreg rk).toNat ≤ Config.polyMaxLen) .polyOverflow
    return s.setQ qd (pshift p (s.sreg rk).toNat)

/-- PEVAL (R191). -/
def execPeval (rd : SReg) (q : QReg) (rx : SReg) (s : State) : Host.Outcome State Fault Refusal :=
  finish (.peval rd q rx) s do
    let F ← needField s
    let x ← elemOperand F (s.sreg rx)
    return s.setElem rd (peval F (s.qreg q) x)

/-- PDEG (R192). -/
def execPdeg (rd : SReg) (q : QReg) (s : State) : Host.Outcome State Fault Refusal :=
  finish (.pdeg rd q) s do
    let _ ← needField s
    return s.setCount rd (deg (s.qreg q))

/-- PLEAD (R193). -/
def execPlead (rd : SReg) (q : QReg) (s : State) : Host.Outcome State Fault Refusal :=
  finish (.plead rd q) s do
    let _ ← needField s
    return s.setElem rd (lead (s.qreg q))

/-- PCONST (R194). -/
def execPconst (rd : SReg) (q : QReg) (s : State) : Host.Outcome State Fault Refusal :=
  finish (.pconst rd q) s do
    let _ ← needField s
    return s.setElem rd (coef (s.qreg q) 0)

/-- PCOEF (R195): any 32-bit k. -/
def execPcoef (rd : SReg) (q : QReg) (rk : SReg) (s : State) : Host.Outcome State Fault Refusal :=
  finish (.pcoef rd q rk) s do
    let _ ← needField s
    return s.setElem rd (coef (s.qreg q) (s.sreg rk).toNat)

/-- PCOPY (R196). -/
def execPcopy (qd qs : QReg) (s : State) : Host.Outcome State Fault Refusal :=
  finish (.pcopy qd qs) s do
    let _ ← needField s
    return s.setQ qd (s.qreg qs)

/-- PLD (R197): the length check comes before the range check. -/
def execPld (qd : QReg) (raddr rn : SReg) (s : State) : Host.Outcome State Fault Refusal :=
  finish (.pld qd raddr rn) s do
    let F ← needField s
    let a := (s.sreg raddr).toNat
    let n := (s.sreg rn).toNat
    check (n ≤ Config.polyMaxLen) .polyOverflow
    checkBlock s a n
    let c ← elemBlock F s a n
    return s.setQ qd (norm c)

/-- PST (R198). -/
def execPst (rd : SReg) (q : QReg) (raddr : SReg) (s : State) : Host.Outcome State Fault Refusal :=
  finish (.pst rd q raddr) s do
    let _ ← needField s
    let p := s.qreg q
    let a := (s.sreg raddr).toNat
    checkBlock s a p.length
    return (s.setMem (Memory.writeBlock s.dmem a (elemHalves p))).setCount rd p.length

/-- PZEROS (R199). -/
def execPzeros (rd : SReg) (q : QReg) (s : State) : Host.Outcome State Fault Refusal :=
  finish (.pzeros rd q) s do
    let F ← needField s
    let roots := pzeros F (s.qreg q)
    return (s.setRbuf roots).setCount rd roots.length

end Sys2Proof.Machine
end

