-- ==== Sys2Proof/Machine/Euclid.lean ====
section
/-! DEFINITION. The parts of the Reed-Solomon decoder (spec/44_rs_decoder.md R251 to R274): syndromes, the
extended Euclidean solver, and the correction loop. -/

namespace Sys2Proof.Machine

/-- The syndromes S_0, ..., S_(P-1) of the word `w` (R251). -/
def syndromes (F : FieldCfg) (w : List Elem) (P : Nat) : List Elem :=
  (List.range P).map (fun i => peval F w (alphaPow F (F.base.toNat + i)))

/-- The syndrome polynomial, S_i the coefficient of x^i (R251). -/
def syndromePoly (ss : List Elem) : Poly :=
  norm ss.reverse

/-- Every syndrome is zero; so for P = 0 (R251). -/
def allZero (ss : List Elem) : Bool :=
  ss.all (fun v => v == 0)

/-! ### The extended Euclidean solver -/

/-- R259's inner loop: divide `r` by `rLast`, collecting the quotient in `q`. `fuel` bounds the passes; deg(r)
strictly decreases (R259), so the length of the first `r` is enough. -/
def divLoop (F : FieldCfg) (rLast : Poly) (dltInv : Elem) (fuel : Nat) (r q : Poly) : Poly × Poly :=
  match fuel with
  | 0 => (r, q)
  | fuel + 1 =>
    if deg rLast ≤ deg r ∧ r ≠ [0] then
      let dd := deg r - deg rLast
      let scale := gmul F (lead r) dltInv
      divLoop F rLast dltInv fuel (padd r (pshift (pscal F rLast scale) dd)) (padd q (pmono dd scale))
    else (r, q)

/-- The working polynomials of EUCLID (R256). -/
structure EucState where
  rLast : Poly
  r : Poly
  tLast : Poly
  t : Poly
deriving DecidableEq, Repr

/-- EUCLID's initialisation (R256): x^P and the syndrome polynomial, the one of larger degree first. -/
def eucInit (P : Nat) (Sy : Poly) : EucState :=
  if P < deg Sy then ⟨Sy, pmono P 1, [0], [1]⟩ else ⟨pmono P 1, Sy, [0], [1]⟩

/-- One pass of EUCLID's main loop (R258 to R260). -/
def eucStep (F : FieldCfg) (e : EucState) : EucState :=
  let d := divLoop F e.r (ginv F (lead e.r)) e.rLast.length e.rLast [0]
  ⟨e.r, d.1, e.t, padd (pmul F d.2 e.t) e.tLast⟩

/-- EUCLID's main loop (R257): while 2 · deg(r) >= P. `fuel` bounds the passes (R263). -/
def eucLoop (F : FieldCfg) (P : Nat) (fuel : Nat) (e : EucState) : EucState :=
  match fuel with
  | 0 => e
  | fuel + 1 => if P ≤ 2 * deg e.r then eucLoop F P fuel (eucStep F e) else e

/-- EUCLID (R256 to R261): sigma and omega, or `none` where the constant term of t is zero. The fuel is R263's
bound max(P, deg(Sy)) + 1. -/
def euclid (F : FieldCfg) (P : Nat) (Sy : Poly) : Option (Poly × Poly) :=
  let e := eucLoop F P (max P (deg Sy) + 1) (eucInit P Sy)
  let s0 := coef e.t 0
  if s0 = 0 then none else some (pscal F e.t (ginv F s0), pscal F e.r (ginv F s0))

/-! ### Positions and magnitudes -/

/-- The denominator of R274 for root number `k` with value `rk`: the product over i /= k of 1 XOR X[i]·R[k],
the loop of R270 over the locators left, the first of them number `i`. -/
def fixDenom (F : FieldCfg) (k : Nat) (rk : Elem) (i : Nat) (xs : List Elem) (den : Elem) : Elem :=
  match xs with
  | [] => den
  | x :: rest =>
    fixDenom F k rk (i + 1) rest (if i = k then den else gmul F den (1 ^^^ gmul F x rk))

/-- The magnitude at root number `k` with value `rk` (R270, R274). -/
def fixMagnitude (F : FieldCfg) (omega : Poly) (X : List Elem) (k : Nat) (rk : Elem) : Elem :=
  gmul F (gmul F (peval F omega rk) (gpow F rk F.base.toNat)) (ginv F (fixDenom F k rk 0 X 1))

/-- R270's loop over the roots left, the first of them number `k`: a root located before the word is skipped
(R273), every other one corrects its position (R272) and is counted. -/
def fixLoop (F : FieldCfg) (omega : Poly) (X : List Elem) (k : Nat) (roots : List Elem) (w : List Elem) (cnt : Nat) :
    List Elem × Nat :=
  match roots with
  | [] => (w, cnt)
  | r :: rest =>
    let j := logAt F (ginv F r)
    if w.length ≤ j then fixLoop F omega X (k + 1) rest w cnt
    else
      fixLoop F omega X (k + 1) rest (w.modify (w.length - 1 - j) (fun v => v ^^^ fixMagnitude F omega X k r)) (cnt + 1)

/-- The corrected word and the number of corrected positions (R270). -/
def fixWord (F : FieldCfg) (omega : Poly) (roots : List Elem) (w : List Elem) : List Elem × Nat :=
  fixLoop F omega (roots.map (ginv F)) 0 roots w 0

end Sys2Proof.Machine
end

