-- ==== Sys2Proof/Machine/Flags.lean ====
section
/-! DEFINITION. The STATUS flags and the control and status registers (spec/10_state.md R37 to R43). -/

namespace Sys2Proof.Machine

/-- STATUS.SYNZ <- b (44_rs_decoder.md R251, R283). -/
def State.setSynz (s : State) (b : Bool) : State :=
  { s with synz := b }

/-- STATUS.EUCFAIL <- b (44_rs_decoder.md R262). -/
def State.setEucfail (s : State) (b : Bool) : State :=
  { s with eucfail := b }

/-- STATUS.DSTAT <- d (44_rs_decoder.md R283). -/
def State.setDstat (s : State) (d : DStat) : State :=
  { s with dstat := d }

/-- The code of DSTAT (10_state.md R40). -/
def dstatCode : DStat → Nat
  | .noErrors => 0
  | .corrected => 1
  | .uncorrectable => 2

/-- STATUS with the given BUSY and FAULT bits (10_state.md R40); bits 31:7 read 0. -/
def statusWord (s : State) (busy fault : Bool) : Word :=
  BitVec.ofNat 32 (busy.toNat + 2 * fault.toNat + 4 * s.field.valid.toNat + 8 * s.synz.toNat
    + 16 * s.eucfail.toNat + 32 * dstatCode s.dstat)

/-- ID (10_state.md R39). -/
def idWord : Word := 0x47414201

/-- The CSR map (10_state.md R38): the value of CSR `n`, STATUS with the given BUSY and FAULT bits; `none` for a
reserved number. -/
def csrValue (s : State) (busy fault : Bool) (n : Nat) : Option Word :=
  match n with
  | 0x000 => some idWord
  | 0x001 => some (statusWord s busy fault)
  | 0x002 => some (s.cause.setWidth 32)
  | 0x003 => some s.fcmd
  | 0x004 => some s.cmdcnt
  | 0x005 => some (s.field.size.setWidth 32)
  | 0x006 => some (s.field.m.setWidth 32)
  | 0x007 => some (s.field.gen.setWidth 32)
  | 0x008 => some (s.field.base.setWidth 32)
  | 0x009 => some ((BitVec.ofNat 13 s.rcount).setWidth 32)
  | 0x00A => some (s.stream.packer.baw.setWidth 32)
  | 0x00B => some (BitVec.ofNat 32 s.stream.packer.basd.toNat)
  | 0x00C => some s.stream.packer.balen
  | 0x00D => some ((BitVec.ofNat 13 s.banw).setWidth 32)
  | 0x00E => some (s.stream.packer.bacur.setWidth 32)
  | 0x00F => some (s.stream.packer.bacurlen.setWidth 32)
  | 0x010 => some s.stream.packer.banstuff
  | 0x011 => some (s.dnfix.setWidth 32)
  | 0x012 => some (s.menc.mw.setWidth 32)
  | 0x013 => some s.menc.mcost
  | 0x014 => some (s.menc.mmode.setWidth 32)
  | 0x015 => some (s.menc.mlen.setWidth 32)
  | _ => none

/-- A CSR as RDCSR reads it: the command is itself executing, so BUSY = 1 and FAULT = 0 (10_state.md R40,
40_support.md R138). -/
def csrInCommand (s : State) (n : Nat) : Option Word :=
  csrValue s true false n

/-- A CSR as the host reads it between two command steps (10_state.md R40, 20_memory.md R86). -/
def csrFromHost (s : State) (n : Nat) : Option Word :=
  csrValue s (s.executor == .busy) (s.executor == .faulted) n

end Sys2Proof.Machine
end

