-- ==== Sys2Proof/Machine/RsDecoder.lean ====
section
/-! DEFINITION. The meanings of the Reed-Solomon decoder commands (spec/44_rs_decoder.md). -/

namespace Sys2Proof.Machine

/-- RSSYN (R251). -/
def execRssyn (qs : QReg) (raddr rn rp : SReg) (s : State) : Host.Outcome State Fault Refusal :=
  finish (.rssyn qs raddr rn rp) s do
    let F ← needField s
    let wa := (s.sreg raddr).toNat
    let n := (s.sreg rn).toNat
    let P ← parityOperand F (s.sreg rp)
    checkBlock s wa n
    let w ← elemBlock F s wa n
    let ss := syndromes F w P
    return (s.setQ qs (syndromePoly ss)).setSynz (allZero ss)

/-- RSEUC (R255, R262): the two destinations are written only where EUCLID succeeds. -/
def execRseuc (qsig qomg qs : QReg) (rp : SReg) (s : State) : Host.Outcome State Fault Refusal :=
  finish (.rseuc qsig qomg qs rp) s do
    check (qsig ≠ qomg) .illegalCommand
    let F ← needField s
    let P := (s.sreg rp).toNat
    check (P ≠ 0 ∧ P ≤ F.order) .operandRange
    match euclid F P (s.qreg qs) with
    | some (sigma, omega) => return ((s.setQ qsig sigma).setQ qomg omega).setEucfail false
    | none => return s.setEucfail true

/-- RSFIX (R270). -/
def execRsfix (rd raddr rn : SReg) (qomg : QReg) (s : State) : Host.Outcome State Fault Refusal :=
  finish (.rsfix rd raddr rn qomg) s do
    let F ← needField s
    let wa := (s.sreg raddr).toNat
    let n := (s.sreg rn).toNat
    checkBlock s wa n
    let w ← elemBlock F s wa n
    let fixed := fixWord F (s.qreg qomg) s.rbuf w
    return ((s.setMem (Memory.writeBlock s.dmem wa (elemHalves fixed.1))).setDnfix fixed.2).setCount rd fixed.2

/-- RSDEC (R280 to R283). -/
def execRsdec (rd raddr rn rp : SReg) (s : State) : Host.Outcome State Fault Refusal :=
  finish (.rsdec rd raddr rn rp) s do
    let F ← needField s
    let wa := (s.sreg raddr).toNat
    let n := (s.sreg rn).toNat
    let P ← parityOperand F (s.sreg rp)
    checkBlock s wa n
    let w ← elemBlock F s wa n
    let ss := syndromes F w P
    let s := s.setSynz (allZero ss)
    if allZero ss then
      return ((s.setDstat .noErrors).setDnfix 0).setCount rd 1
    else
      match euclid F P (syndromePoly ss) with
      | none => return ((s.setDstat .uncorrectable).setDnfix 0).setCount rd 0
      | some (sigma, omega) =>
        let fixed := fixWord F omega (pzeros F sigma) w
        let t := s.setMem (Memory.writeBlock s.dmem wa (elemHalves fixed.1))
        return ((t.setDstat .corrected).setDnfix fixed.2).setCount rd 1

/-- RBST (R275). -/
def execRbst (rd raddr : SReg) (s : State) : Host.Outcome State Fault Refusal :=
  finish (.rbst rd raddr) s do
    let _ ← needField s
    let a := (s.sreg raddr).toNat
    checkBlock s a s.rcount
    return (s.setMem (Memory.writeBlock s.dmem a (elemHalves s.rbuf))).setCount rd s.rcount

end Sys2Proof.Machine
end

