-- ==== Sys2Proof/Machine/RsEncoder.lean ====
section
/-! DEFINITION. The meanings of the Reed-Solomon encoder commands (spec/43_rs_encoder.md). -/

namespace Sys2Proof.Machine

/-- RSGEN (R231). -/
def execRsgen (qd : QReg) (rp : SReg) (s : State) : Host.Outcome State Fault Refusal :=
  finish (.rsgen qd rp) s do
    let F ← needField s
    let P ← parityOperand F (s.sreg rp)
    return s.setQ qd (genPoly F P)

/-- One pass of R234's loop: shift the message word `v` into the parity buffer; nothing where P = 0. -/
def parityStep (F : FieldCfg) (g : Poly) (buf : List Elem) (v : Elem) : List Elem :=
  match buf with
  | [] => []
  | b :: rest =>
    let fb := v ^^^ b
    if fb = 0 then rest ++ [0]
    else List.zipWith (fun x c => x ^^^ gmul F fb c) (rest ++ [0]) g.tail

/-- The parity words of the message `m` under the generator `g` (R234). -/
def parity (F : FieldCfg) (g : Poly) (m : List Elem) : List Elem :=
  m.foldl (parityStep F g) (List.replicate (deg g) 0)

/-- RSENC (R234): the message is read before the codeword is written. -/
def execRsenc (qg : QReg) (rmsg rl rdst : SReg) (s : State) : Host.Outcome State Fault Refusal :=
  finish (.rsenc qg rmsg rl rdst) s do
    let F ← needField s
    let g := s.qreg qg
    let ma := (s.sreg rmsg).toNat
    let L := (s.sreg rl).toNat
    let da := (s.sreg rdst).toNat
    check (lead g = 1) .operandRange
    checkBlock s ma L
    checkBlock s da (L + deg g)
    let m ← elemBlock F s ma L
    return s.setMem (Memory.writeBlock s.dmem da (elemHalves (m ++ parity F g m)))

end Sys2Proof.Machine
end

