-- ==== Sys2Proof/Machine/Support.lean ====
section
/-! DEFINITION. The meanings of the support commands (spec/40_support.md). -/

namespace Sys2Proof.Machine

/-- NOP (R130). -/
def execNop (s : State) : Host.Outcome State Fault Refusal :=
  finish .nop s (.ok s)

/-- LI (R131): S[rd] <- zext(imm16). -/
def execLi (rd : SReg) (imm16 : BitVec 16) (s : State) : Host.Outcome State Fault Refusal :=
  finish (.li rd imm16) s (.ok (s.setS rd (imm16.setWidth 32)))

/-- LIH (R132): imm16 in bits 31:16, the low half kept. -/
def execLih (rd : SReg) (imm16 : BitVec 16) (s : State) : Host.Outcome State Fault Refusal :=
  finish (.lih rd imm16) s (.ok (s.setS rd (imm16 ++ (s.sreg rd).setWidth 16)))

/-- MOV (R133). -/
def execMov (rd rs : SReg) (s : State) : Host.Outcome State Fault Refusal :=
  finish (.mov rd rs) s (.ok (s.setS rd (s.sreg rs)))

/-- LDW (R134). -/
def execLdw (rd ra : SReg) (s : State) : Host.Outcome State Fault Refusal :=
  finish (.ldw rd ra) s do
    let a ← addrOperand s (s.sreg ra)
    return s.setS rd ((Memory.read s.dmem a).setWidth 32)

/-- STW (R135): the low half of the value register. -/
def execStw (rv ra : SReg) (s : State) : Host.Outcome State Fault Refusal :=
  finish (.stw rv ra) s do
    let a ← addrOperand s (s.sreg ra)
    return s.setMem (Memory.write s.dmem a ((s.sreg rv).setWidth 16))

/-- RDCSR (R138): the CSR as it stands before this command's CMDCNT increment. -/
def execRdcsr (rd : SReg) (csr : BitVec 10) (s : State) : Host.Outcome State Fault Refusal :=
  finish (.rdcsr rd csr) s
    (match csrInCommand s csr.toNat with
     | some v => .ok (s.setS rd v)
     | none => .error .illegalCommand)

end Sys2Proof.Machine
end

