-- ==== Sys2Proof/Machine/Dispatch.lean ====
section
/-! DEFINITION. One arm per command, each a direct call of the command's meaning. -/

namespace Sys2Proof.Machine

/-- The effect of a command (spec/40_support.md to spec/46_mode_encoder.md). -/
def exec (i : Instr) (s : State) : Host.Outcome State Fault Refusal :=
  match i with
  | .nop => Sys2Proof.Machine.execNop s
  | .li rd imm16 => Sys2Proof.Machine.execLi rd imm16 s
  | .lih rd imm16 => Sys2Proof.Machine.execLih rd imm16 s
  | .mov rd rs => Sys2Proof.Machine.execMov rd rs s
  | .ldw rd ra => Sys2Proof.Machine.execLdw rd ra s
  | .stw rv ra => Sys2Proof.Machine.execStw rv ra s
  | .rdcsr rd csr => Sys2Proof.Machine.execRdcsr rd csr s
  | .fcfg rsize rgen rbase => Sys2Proof.Machine.execFcfg rsize rgen rbase s
  | .gadd rd rx ry => Sys2Proof.Machine.execGadd rd rx ry s
  | .gmul rd rx ry => Sys2Proof.Machine.execGmul rd rx ry s
  | .ginv rd rx => Sys2Proof.Machine.execGinv rd rx s
  | .gdiv rd rx ry => Sys2Proof.Machine.execGdiv rd rx ry s
  | .gexp rd re => Sys2Proof.Machine.execGexp rd re s
  | .glog rd rx => Sys2Proof.Machine.execGlog rd rx s
  | .pzero qd => Sys2Proof.Machine.execPzero qd s
  | .pone qd => Sys2Proof.Machine.execPone qd s
  | .pmono qd rdeg rk => Sys2Proof.Machine.execPmono qd rdeg rk s
  | .padd qd qs => Sys2Proof.Machine.execPadd qd qs s
  | .pmul qd qx qy => Sys2Proof.Machine.execPmul qd qx qy s
  | .pscal qd rk => Sys2Proof.Machine.execPscal qd rk s
  | .pshift qd rk => Sys2Proof.Machine.execPshift qd rk s
  | .peval rd q rx => Sys2Proof.Machine.execPeval rd q rx s
  | .pdeg rd q => Sys2Proof.Machine.execPdeg rd q s
  | .plead rd q => Sys2Proof.Machine.execPlead rd q s
  | .pconst rd q => Sys2Proof.Machine.execPconst rd q s
  | .pcoef rd q rk => Sys2Proof.Machine.execPcoef rd q rk s
  | .pcopy qd qs => Sys2Proof.Machine.execPcopy qd qs s
  | .pld qd raddr rn => Sys2Proof.Machine.execPld qd raddr rn s
  | .pst rd q raddr => Sys2Proof.Machine.execPst rd q raddr s
  | .pzeros rd q => Sys2Proof.Machine.execPzeros rd q s
  | .rsgen qd rp => Sys2Proof.Machine.execRsgen qd rp s
  | .rsenc qg rmsg rl rdst => Sys2Proof.Machine.execRsenc qg rmsg rl rdst s
  | .rssyn qs raddr rn rp => Sys2Proof.Machine.execRssyn qs raddr rn rp s
  | .rseuc qsig qomg qs rp => Sys2Proof.Machine.execRseuc qsig qomg qs rp s
  | .rsfix rd raddr rn qomg => Sys2Proof.Machine.execRsfix rd raddr rn qomg s
  | .rsdec rd raddr rn rp => Sys2Proof.Machine.execRsdec rd raddr rn rp s
  | .rbst rd raddr => Sys2Proof.Machine.execRbst rd raddr s
  | .bainit rw sd => Sys2Proof.Machine.execBainit rw sd s
  | .baapp rv rn => Sys2Proof.Machine.execBaapp rv rn s
  | .bapad => Sys2Proof.Machine.execBapad s
  | .bast rd raddr => Sys2Proof.Machine.execBast rd raddr s
  | .menc rd raddr rn rw => Sys2Proof.Machine.execMenc rd raddr rn rw s
  | .mslot rd rm => Sys2Proof.Machine.execMslot rd rm s

end Sys2Proof.Machine
end

