-- ==== Sys2Proof/Machine/HostPort.lean ====
section
/-! DEFINITION. The host port (spec/20_memory.md R85, R86; spec/10_state.md R51; spec/60_exceptions.md R414;
spec/70_reset_and_hazards.md R452). -/

namespace Sys2Proof.Machine

/-- Soft reset (70_reset_and_hazards.md R452): the command that is executing is abandoned without effect (log entry 10), the
FIFO is emptied, and every piece of state takes its reset value but DMEM, which stays. The parameters and the model's
record of the host stay too: they are not state of the core. -/
def softReset (s : State) : State :=
  { State.reset with
    dmem := s.dmem
    cfg := s.cfg
    hostIn := s.hostIn
    hostOut := s.hostOut
    freeCount := s.freeCount }

/-- A write of CTRL (10_state.md R51): bit 1 SRESET, which wins over bit 0 CLRFAULT (60_exceptions.md R414); other bits
are ignored. -/
def writeCtrl (v : Word) (s : State) : State :=
  if v.getLsbD 1 then softReset s else if v.getLsbD 0 then clearFault s else s

/-- Return a value to the host. -/
def answerHost (v : Word) (s : State) : State :=
  { s with hostOut := s.hostOut ++ [v] }

/-- A host read of a CSR (20_memory.md R86); a reserved number returns a free value. -/
def hostReadCsr (n : Nat) (s : State) : State :=
  match csrFromHost s n with
  | some v => answerHost v s
  | none => answerHost (Config.reservedCsr s.freeCount) { s with freeCount := s.freeCount + 1 }

/-- A host read of a DMEM word (20_memory.md R85): 0 outside DMEM. -/
def hostReadDmem (a : Nat) (s : State) : State :=
  answerHost (if a < s.cfg.dmemWords then (Memory.read s.dmem a).setWidth 32 else 0) s

/-- A host write of a DMEM word (20_memory.md R85): ignored outside DMEM. -/
def hostWriteDmem (a : Nat) (v : Half) (s : State) : State :=
  if a < s.cfg.dmemWords then s.setMem (Memory.write s.dmem a v) else s

/-- A push of a command word (10_state.md R36, R51). -/
def hostPush (w : Word) (s : State) : State :=
  { s with fifo := s.fifo ++ [w] }

/-- The effect of a host operation that completes (20_memory.md R85, 10_state.md R51). -/
def serveHost (op : HostOp) (s : State) : State :=
  match op with
  | .pushCmd w => hostPush w s
  | .writeCtrl v => writeCtrl v s
  | .readCsr n => hostReadCsr n s
  | .readDmem a => hostReadDmem a s
  | .writeDmem a v => hostWriteDmem a v s
  | .readCmd => answerHost 0 s
  | .readCtrl => answerHost 0 s

/-- Whether a host operation is held (20_memory.md R86). The words that fill the FIFO are the waiting ones: the word of a
command that is executing has left it (log entry 22). -/
def hostHeld (op : HostOp) (s : State) : Bool :=
  match op with
  | .pushCmd _ => decide (s.cfg.cmdqDepth ≤ s.fifo.length)
  | .readDmem _ => s.executor == .busy
  | .writeDmem _ _ => s.executor == .busy
  | .writeCtrl _ => false
  | .readCsr _ => false
  | .readCmd => false
  | .readCtrl => false

/-- The operations R86 never holds. -/
def neverHeld : HostOp → Bool
  | .writeCtrl _ => true
  | .readCsr _ => true
  | .readCmd => true
  | .readCtrl => true
  | .pushCmd _ => false
  | .readDmem _ => false
  | .writeDmem _ _ => false

/-- The first operation of a list that is never held, and the list without it. -/
def takeNeverHeld : List HostOp → Option (HostOp × List HostOp)
  | [] => none
  | op :: rest =>
    if neverHeld op then some (op, rest)
    else (takeNeverHeld rest).map (fun r => (r.1, op :: r.2))

/-- The host operation that can complete next, and the operations left: the oldest, or, while that one is held, the first
operation behind it that is never held. -/
def hostReady (s : State) : Option (HostOp × List HostOp) :=
  match s.hostIn with
  | [] => none
  | op :: rest =>
    if hostHeld op s then (takeNeverHeld rest).map (fun r => (r.1, op :: r.2)) else some (op, rest)

/-- The host operation `op` completes and `rest` are left pending. -/
def hostStep (op : HostOp) (rest : List HostOp) (s : State) : State :=
  serveHost op { s with hostIn := rest }

end Sys2Proof.Machine
end

