-- ==== Sys2Proof/Machine/Fetch.lean ====
section
/-! DEFINITION. The executor's step and the order of host accesses and commands (spec/70_reset_and_hazards.md R458,
R464; spec/30_encoding.md R112). -/

namespace Sys2Proof.Machine

/-- Run the command word `w` in state `s` (30_encoding.md R112, 60_exceptions.md R402): a word that is no command
takes the fault ILLEGAL_COMMAND. -/
def runWord (w : Word) (s : State) : Host.Outcome State Fault Refusal :=
  match decode w with
  | .ok i => exec i s
  | .error _ => .next (takeFault w .illegalCommand s)

/-- The executor takes the oldest FIFO word and executes its command (70_reset_and_hazards.md R458). The word's FIFO entry
frees when the executor takes it: DESIGN CHOICE, log entry 22. -/
def takeWord (s : State) : State :=
  match s.fifo with
  | [] => s
  | w :: rest => { s with fifo := rest, running := some w }

/-- The executor ends a command (70_reset_and_hazards.md R458): the one that is executing, or else that of the oldest FIFO word,
taken (log entry 22) and executed in this one step. -/
def commandStep (s : State) : Host.Outcome State Fault Refusal :=
  match s.running with
  | some w => runWord w { s with running := none }
  | none =>
    match s.fifo with
    | [] => .next s
    | w :: rest => runWord w { s with fifo := rest }

/-- Count one draw of the free choices. -/
def countDraw (s : State) : State :=
  { s with freeCount := s.freeCount + 1 }

/-- One step while the executor is BUSY and host operations are pending: free choices (70_reset_and_hazards.md R464, log
entries 7 and 22) say whether the host operation that can complete goes first, whether the executor only takes its next
word, or whether it ends a command. -/
def sharedStep (s : State) : Host.Outcome State Fault Refusal :=
  match hostReady s, Config.hostFirst s.freeCount with
  | some (op, rest), true => .next (hostStep op rest (countDraw s))
  | _, _ =>
    if s.running = none ∧ Config.takeOnly s.freeCount = true then .next (takeWord (countDraw s))
    else commandStep (countDraw s)

/-- One step: while BUSY, a command step, shared with the host where host operations are pending; else a host operation, or
the core waits (R463, R467). -/
def nextStep (s : State) : Host.Outcome State Fault Refusal :=
  if s.executor = .busy then
    if s.hostIn = [] then commandStep s else sharedStep s
  else
    match hostReady s with
    | none => .next s
    | some (op, rest) => .next (hostStep op rest s)

/-- The state with the word `w` where the executor takes its next command, the executor able to take it, and no host
access that could go before it. -/
def placeWord (s : State) (w : Word) : State :=
  { clearFault s with running := none, fifo := w :: s.fifo.tail, hostIn := [] }

end Sys2Proof.Machine
end

