-- ==== Sys2Proof/Machine/Step.lean ====
section
/-! DEFINITION. One step of the machine (spec/70_reset_and_hazards.md R458). -/

namespace Sys2Proof.Machine

/-- One step: the executor takes a word or ends a command, or one host operation completes, or the core waits. -/
def step (s : State) : Host.Outcome State Fault Refusal :=
  nextStep s

/-- `s` with the word `w` placed where `step` takes its next command; every command is one 32-bit word. -/
def State.withFetchWord (s : State) (_nbits w : Nat) : State :=
  placeWord s (BitVec.ofNat 32 w)

end Sys2Proof.Machine
end

