-- ==== Sys2Proof/Machine/WidthLoop.lean ====
section
/-! DEFINITION. The outer width loop of the mode encoder, a host protocol (spec/46_mode_encoder.md R360 to R362). -/

namespace Sys2Proof.Machine

/-- How the host's loop ends (R360, R362). -/
inductive WidthResult where
  /-- The width stopped increasing: the last width and the state the last MENC left. -/
  | settled (w : Nat) (s : State)
  /-- SYMBOL_FOR reports that nothing fits: the host abandons the encode (R362). -/
  | noSymbol (s : State)
  /-- A command faulted: the host reads CAUSE and FCMD. -/
  | faulted (s : State)
  /-- More passes than were allowed for. -/
  | outOfPasses (s : State)
deriving DecidableEq, Repr

/-- The state after a command, as the host finds it once BUSY = 0. -/
def afterCommand (i : Instr) (s : State) : State :=
  match exec i s with
  | .next t => t
  | .fault _ => s
  | .refused _ => s

/-- One pass of R360: the host puts the width into S[rw] with LI and pushes MENC. -/
def mencPass (rd raddr rn rw : SReg) (w : Nat) (s : State) : State :=
  afterCommand (.menc rd raddr rn rw) (afterCommand (.li rw (BitVec.ofNat 16 w)) s)

/-- R360's loop from width `w` for at most `passes` passes; `lookup` is SYMBOL_FOR with the user's two parameters. -/
def widthLoop (lookup : Nat → Option Nat) (rd raddr rn rw : SReg) : Nat → Nat → State → WidthResult
  | 0, _, s => .outOfPasses s
  | passes + 1, w, s =>
    let t := mencPass rd raddr rn rw w s
    if t.faulted then .faulted t
    else
      match lookup t.menc.mcost.toNat with
      | none => .noSymbol t
      | some w2 => if w2 ≤ w then .settled w t else widthLoop lookup rd raddr rn rw passes w2 t

/-- R360 with the external SYMBOL_FOR: start at width 6, at most the 4 passes of R361. -/
def encodeText (rd raddr rn rw : SReg) (ecPercent layers : Nat) (s : State) : WidthResult :=
  widthLoop (fun bits => Config.symbolFor bits ecPercent layers) rd raddr rn rw 4 6 s

end Sys2Proof.Machine
end

