-- ==== Sys2Proof/Safety.lean ====
section
/-! DEFINITION. What holds of every state of a run, in the terms the claims use, and what a safe step is. -/

namespace Sys2Proof.Machine

/-- The field is not configured, or it is one that FCFG builds (41_field.md R151 to R155, 10_state.md R44). -/
def FieldOk (F : FieldCfg) : Prop :=
  F = FieldCfg.none ∨ ∃ size gen base, buildField size gen base = some F

/-- `x` is an element of the field (00_scope.md R18). -/
def IsElem (F : FieldCfg) (x : Elem) : Prop :=
  x.toNat < F.size.toNat

/-- A polynomial in normal form over the field (10_state.md R33, 42_polynomial.md R182). -/
def PolyOk (F : FieldCfg) (p : Poly) : Prop :=
  p ≠ [] ∧ (p.headD 0 ≠ 0 ∨ p = [0]) ∧ ∀ x ∈ p, IsElem F x

/-- The polynomial registers (10_state.md R33): over a configured field each holds a polynomial in normal form; without
a field each holds `[0]` (41_field.md R155). -/
def QregsOk (s : State) : Prop :=
  (s.field.valid = true → ∀ q, PolyOk s.field (s.qreg q)) ∧ (s.field.valid = false → ∀ q, s.qreg q = [0])

/-- No polynomial register is longer than POLY_MAXLEN (10_state.md R33). -/
def QregsFit (s : State) : Prop :=
  ∀ q, (s.qreg q).length ≤ Config.polyMaxLen

/-- The root buffer (10_state.md R46, 44_rs_decoder.md R271): distinct nonzero elements; none without a field. -/
def RbufOk (s : State) : Prop :=
  s.rbuf.Nodup ∧ (∀ x ∈ s.rbuf, x ≠ 0 ∧ IsElem s.field x)

/-- The bit-stream unit (10_state.md R47, 45_bitappender.md R295): uninitialised, or a stream of width 2 to 16 whose
partial word is shorter than a word, whose bit length counts every bit, whose words fit the width and the buffer, and, with
stuffing, whose completed words are neither all 0 nor all 1. -/
def StreamOk (b : BitStream) : Prop :=
  b = BitStream.reset ∨
  (2 ≤ b.packer.baw.toNat ∧ b.packer.baw.toNat ≤ 16 ∧
    b.packer.bacurlen.toNat < b.packer.baw.toNat ∧
    b.packer.bacur.toNat < 2 ^ b.packer.bacurlen.toNat ∧
    b.packer.balen = BitVec.ofNat 32 (b.packer.baw.toNat * b.words.length + b.packer.bacurlen.toNat) ∧
    b.words.length ≤ Config.bsWords ∧
    (∀ v ∈ b.words, v.toNat < 2 ^ b.packer.baw.toNat) ∧
    (b.packer.basd = false → ∀ v ∈ b.words, v.toNat ≠ 0 ∧ v.toNat ≠ 2 ^ b.packer.baw.toNat - 1))

/-- DMEM is in canonical form and lists only addresses of DMEM (20_memory.md R80). -/
def MemOk (s : State) : Prop :=
  Memory.wf s.dmem = true ∧ Memory.within s.cfg.dmemWords s.dmem = true

/-- CAUSE holds a fault's code exactly while the executor is FAULTED (60_exceptions.md R401, R415, 10_state.md R41), and then no
command executes (10_state.md R36). -/
def FaultOk (s : State) : Prop :=
  (s.faulted = true → s.running = none ∧ ∃ c, s.cause = causeCode c) ∧ (s.faulted = false → s.cause = 0)

/-- The FIFO holds at most CMDQ_DEPTH words (10_state.md R36). -/
def FifoOk (s : State) : Prop :=
  s.fifo.length ≤ s.cfg.cmdqDepth

/-- The mode-encoder results (10_state.md R49): no width or an Aztec width, and the number of a mode. -/
def MencOk (s : State) : Prop :=
  s.menc.mw.toNat ∈ [0, 6, 8, 10, 12] ∧ s.menc.mmode.toNat ≤ 5

/-- The state invariant. -/
structure Inv (s : State) : Prop where
  field : FieldOk s.field
  qregs : QregsOk s
  qfit : QregsFit s
  rbuf : RbufOk s
  stream : StreamOk s.stream
  mem : MemOk s
  fault : FaultOk s
  fifo : FifoOk s
  menc : MencOk s

/-- A safe step: it answers a next state, and that state meets the invariant. -/
def SafeStep (s : State) : Prop :=
  ∃ t, step s = .next t ∧ Inv t

end Sys2Proof.Machine
end

