-- ==== Sys2Proof/Certificates/Slice0/Obligations.lean ====
section
/-! DEFINITION. The statements for the provers. -/

namespace Sys2Proof.Machine

/-! ### Terms the statements use -/

/-- The scalar register a command writes, if it writes one (10_state.md R32). -/
def scalarDest : Instr → Option SReg
  | .nop => none
  | .li rd _ => some rd
  | .lih rd _ => some rd
  | .mov rd _ => some rd
  | .ldw rd _ => some rd
  | .stw _ _ => none
  | .rdcsr rd _ => some rd
  | .fcfg _ _ _ => none
  | .gadd rd _ _ => some rd
  | .gmul rd _ _ => some rd
  | .ginv rd _ => some rd
  | .gdiv rd _ _ => some rd
  | .gexp rd _ => some rd
  | .glog rd _ => some rd
  | .pzero _ => none
  | .pone _ => none
  | .pmono _ _ _ => none
  | .padd _ _ => none
  | .pmul _ _ _ => none
  | .pscal _ _ => none
  | .pshift _ _ => none
  | .peval rd _ _ => some rd
  | .pdeg rd _ => some rd
  | .plead rd _ => some rd
  | .pconst rd _ => some rd
  | .pcoef rd _ _ => some rd
  | .pcopy _ _ => none
  | .pld _ _ _ => none
  | .pst rd _ _ => some rd
  | .pzeros rd _ => some rd
  | .rsgen _ _ => none
  | .rsenc _ _ _ _ => none
  | .rssyn _ _ _ _ => none
  | .rseuc _ _ _ _ => none
  | .rsfix rd _ _ _ => some rd
  | .rsdec rd _ _ _ => some rd
  | .rbst rd _ => some rd
  | .bainit _ _ => none
  | .baapp _ _ => none
  | .bapad => none
  | .bast rd _ => some rd
  | .menc rd _ _ _ => some rd
  | .mslot rd _ => some rd

/-- The commands that can write nothing but a scalar register: NOP, LI, LIH, MOV, LDW, RDCSR, the field commands but
FCFG, the polynomial reads, and MSLOT. -/
def isScalarCommand (i : Instr) : Bool :=
  ["NOP", "LI", "LIH", "MOV", "LDW", "RDCSR", "GADD", "GMUL", "GINV", "GDIV", "GEXP", "GLOG", "PEVAL", "PDEG", "PLEAD",
    "PCONST", "PCOEF", "MSLOT"].contains (mnemonicOf i)

/-- The commands that write polynomial registers (10_state.md R34), FCFG apart, and the registers each writes. -/
def polyDests : Instr → List QReg
  | .pzero qd => [qd]
  | .pone qd => [qd]
  | .pmono qd _ _ => [qd]
  | .padd qd _ => [qd]
  | .pmul qd _ _ => [qd]
  | .pscal qd _ => [qd]
  | .pshift qd _ => [qd]
  | .pcopy qd _ => [qd]
  | .pld qd _ _ => [qd]
  | .rsgen qd _ => [qd]
  | .rssyn qs _ _ _ => [qs]
  | .rseuc qsig qomg _ _ => [qsig, qomg]
  | _ => []

/-- The block a storing command stores to in state `s`: its first address and its number of words, by the expressions of
its meaning (STW, PST, RSENC, RSFIX, RSDEC, RBST, BAST). -/
def storedBlock (i : Instr) (s : State) : Option (Nat × Nat) :=
  match i with
  | .stw _ ra => some ((s.sreg ra).toNat, 1)
  | .pst _ q raddr => some ((s.sreg raddr).toNat, (s.qreg q).length)
  | .rsenc qg _ rl rdst => some ((s.sreg rdst).toNat, (s.sreg rl).toNat + deg (s.qreg qg))
  | .rsfix _ raddr rn _ => some ((s.sreg raddr).toNat, (s.sreg rn).toNat)
  | .rsdec _ raddr rn _ => some ((s.sreg raddr).toNat, (s.sreg rn).toNat)
  | .rbst _ raddr => some ((s.sreg raddr).toNat, s.rcount)
  | .bast _ raddr => some ((s.sreg raddr).toNat, s.banw)
  | _ => none

/-- The code of each cause in the table of 60_exceptions.md R401. -/
def faultCode : Cause → BitVec 8
  | .illegalCommand => 0x01
  | .fieldNotConfigured => 0x02
  | .configError => 0x03
  | .operandRange => 0x04
  | .zeroInverse => 0x05
  | .memRange => 0x06
  | .polyOverflow => 0x07
  | .bsOverflow => 0x08
  | .baConfig => 0x09
  | .mencConfig => 0x0A

/-- The end of a command as the control registers show it: it retired and CMDCNT counted it, or it faulted and the fault is
recorded; nothing of the FIFO, the executing word, the parameters or the host's record changes. -/
def EndsCommand (i : Instr) (s t : State) : Prop :=
  ((t.faulted = s.faulted ∧ t.cause = s.cause ∧ t.fcmd = s.fcmd ∧ t.cmdcnt = s.cmdcnt + 1) ∨
    (t.faulted = true ∧ (∃ c, t.cause = faultCode c) ∧ t.fcmd = encode i ∧ t.cmdcnt = s.cmdcnt)) ∧
  t.fifo = s.fifo ∧ t.running = s.running ∧ t.cfg = s.cfg ∧ t.hostIn = s.hostIn ∧ t.hostOut = s.hostOut ∧ t.freeCount = s.freeCount

/-- The 32-bit value of an element operand as an element. -/
def elemOf (v : Word) : Elem := v.setWidth 12

/-- The value of i doublings of 1 modulo the generator: the power 2^i in the field (41_field.md R154). -/
def powerRef (size gen : Nat) (i : Nat) : Nat :=
  (doubleStep size gen)^[i] 1

/-- Bit-serial multiplication modulo the generator, from the low `n` bits of `y`: x·y = 2·(x·(y/2)) + (y mod 2)·x. -/
def mulRef (size gen x : Nat) : Nat → Nat → Nat
  | 0, _ => 0
  | n + 1, y => doubleStep size gen (mulRef size gen x n (y / 2)) ^^^ (if y % 2 = 1 then x else 0)

/-- The XOR of a sequence of elements. -/
def xorAll (xs : List Elem) : Elem :=
  xs.foldl (fun a b => a ^^^ b) 0

/-- The product of a sequence of elements. -/
def elemProd (F : FieldCfg) (xs : List Elem) : Elem :=
  xs.foldl (fun a b => gmul F a b) 1

/-- x to the power n, as n multiplications. -/
def elemPow (F : FieldCfg) (x : Elem) (n : Nat) : Elem :=
  (fun y => gmul F y x)^[n] 1

/-- The denominator of 44_rs_decoder.md R274 for root number `k` of `roots`: the product of 1 + X[i]·R[k] over the other
roots, X[i] the inverse of root number i. -/
def forneyDenom (F : FieldCfg) (roots : List Elem) (k : Nat) (rk : Elem) : Elem :=
  elemProd F ((roots.eraseIdx k).map (fun r => 1 ^^^ gmul F (ginv F r) rk))

/-- The words of the block (a, n) as elements. -/
def blockElems (s : State) (a n : Nat) : List Elem :=
  (Memory.readBlock s.dmem a n).map (fun v => v.setWidth 12)

/-- A block of field elements a command can read: in range, every word an element. -/
def ReadableElems (s : State) (a n : Nat) : Prop :=
  blockInRange s a n ∧ ∀ v ∈ Memory.readBlock s.dmem a n, v.toNat < s.field.size.toNat

/-- The conditions of 41_field.md R151 to R154 on FCFG's operands. -/
def LegalField (size gen base : Nat) : Prop :=
  (∃ m, 1 ≤ m ∧ m ≤ 12 ∧ size = 2 ^ m) ∧ size ≤ gen ∧ gen ≤ 2 * size - 1 ∧ base ≤ size - 2 ∧
    (∀ i, 1 ≤ i → i ≤ size - 2 → powerRef size gen i ≠ 1) ∧ powerRef size gen (size - 1) = 1

/-- FVALID = 1, the first check of every command that needs the field (41_field.md R168). -/
def fieldCheck (s : State) : Prop × Cause :=
  (s.field.valid = true, .fieldNotConfigured)

/-- The element check of a register operand (41_field.md R162). -/
def elemCheck (s : State) (r : SReg) : Prop × Cause :=
  ((s.sreg r).toNat < s.field.size.toNat, .operandRange)

/-- The check of a parity count (43_rs_encoder.md R231, 44_rs_decoder.md R250). -/
def parityCheck (s : State) (r : SReg) : Prop × Cause :=
  ((s.sreg r).toNat ≤ s.field.size.toNat - 1, .operandRange)

/-- The range check of the block of `n` words at S[r] (20_memory.md R82). -/
def blockCheck (s : State) (r : SReg) (n : Nat) : Prop × Cause :=
  (blockInRange s (s.sreg r).toNat n, .memRange)

/-- Every word of the block of `n` words at S[r] is below `limit` (20_memory.md R83). -/
def wordsCheck (s : State) (r : SReg) (n limit : Nat) : Prop × Cause :=
  (∀ v ∈ Memory.readBlock s.dmem (s.sreg r).toNat n, v.toNat < limit, .operandRange)

/-- The map of 10_state.md R38, STATUS apart: each CSR number with the value it reads. RCOUNT and BANW are the counts of the
listed entries (log entry 4). -/
def csrTable (s : State) : List (Nat × Word) :=
  [(0x000, 0x47414201), (0x002, s.cause.setWidth 32), (0x003, s.fcmd), (0x004, s.cmdcnt),
    (0x005, s.field.size.setWidth 32), (0x006, s.field.m.setWidth 32), (0x007, s.field.gen.setWidth 32),
    (0x008, s.field.base.setWidth 32), (0x009, BitVec.ofNat 32 s.rbuf.length), (0x00A, s.stream.packer.baw.setWidth 32),
    (0x00B, if s.stream.packer.basd then 1 else 0), (0x00C, s.stream.packer.balen),
    (0x00D, BitVec.ofNat 32 s.stream.words.length), (0x00E, s.stream.packer.bacur.setWidth 32),
    (0x00F, s.stream.packer.bacurlen.setWidth 32), (0x010, s.stream.packer.banstuff), (0x011, s.dnfix.setWidth 32),
    (0x012, s.menc.mw.setWidth 32), (0x013, s.menc.mcost), (0x014, s.menc.mmode.setWidth 32),
    (0x015, s.menc.mlen.setWidth 32)]

/-- The word 45_bitappender.md R297 fills a partial word up to: below 2^BAW, the partial word in its high bits, 1 in every bit
below, and 0 in bit 0 exactly where stuffing is on and the word would be all ones. -/
def PaddedWord (p : Packer) (v : Half) : Prop :=
  v.toNat < 2 ^ p.baw.toNat ∧
  (∀ j, j < p.bacurlen.toNat → v.getLsbD (p.baw.toNat - p.bacurlen.toNat + j) = p.bacur.getLsbD j) ∧
  (∀ j, 1 ≤ j → j < p.baw.toNat - p.bacurlen.toNat → v.getLsbD j = true) ∧
  (v.getLsbD 0 = false ↔ p.basd = false ∧ p.bacur.toNat + 1 = 2 ^ p.bacurlen.toNat)

/-- The stream `b` is the stream of registers `p` and words `ws` padded to whole words (45_bitappender.md R297): the same where
the last word is whole; else one padded word more, its pad bits counted in BALEN and not in BANSTUFF. -/
def Padded (p : Packer) (ws : List Half) (b : BitStream) : Prop :=
  (p.bacurlen = 0 ∧ b = ⟨p, ws⟩) ∨
  (p.bacurlen ≠ 0 ∧ ∃ v, PaddedWord p v ∧
    b = ⟨{ p with balen := p.balen + p.baw.setWidth 32 - p.bacurlen.setWidth 32, bacur := 0, bacurlen := 0 }, ws ++ [v]⟩)

/-- The low `n` bits of `v`, most significant first (00_scope.md R14). -/
def msbFirst (n v : Nat) : List Bool :=
  (List.range n).reverse.map (fun i => v.testBit i)

/-- The last bit of the completed word `v` of width `w` is a stuffed bit where stuffing is enabled: the bits before it are all
0 or all 1 (45_bitappender.md R294). -/
def endsStuffed (w : Nat) (v : Half) : Bool :=
  decide (v.toNat / 2 = 0 ∨ v.toNat / 2 + 1 = 2 ^ (w - 1))

/-- The data bits of the completed word `v` of width `w` where stuffing is enabled: all but a stuffed last bit (45_bitappender.md
R294). -/
def unstuffed (w : Nat) (v : Half) : List Bool :=
  if endsStuffed w v then msbFirst (w - 1) (v.toNat / 2) else msbFirst w v.toNat

/-- The bits of a sequence of codes (46_mode_encoder.md R321). -/
def emitted (cs : List Code) : List Bool :=
  (cs.map (fun c => msbFirst c.width c.code)).flatten

/-- The length field of a binary run of `n` bytes (46_mode_encoder.md R332). -/
def runLength (n : Nat) : List Bool :=
  if n ≤ 31 then msbFirst 5 n else msbFirst 5 0 ++ msbFirst 11 (n - 31)

/-- The encodings of a text that end in slot `m` with current character mode `A` (46_mode_encoder.md R340, R341, R344 to R349,
R332): what the edges build, a binary run of 1 to 2078 bytes as one piece with its final length. A pair code has the width of
Punct codes, the model's choice where that is not 5 (log entry 23). -/
inductive Encoding (T : AztecTables) : List Nat → Mode → CharMode → List Bool → Prop where
  | start : Encoding T [] (.chr .upper) .upper []
  | latch {t m A bits} (h : Encoding T t m A bits) (b : CharMode) (ch : Nat) (c : Code) (hc : aztecChar T b ch = some c) :
      Encoding T (t ++ [ch]) (.chr b) b (bits ++ emitted (aztecLatch T A b) ++ emitted [c])
  | shift {t m A bits} (h : Encoding T t m A bits) (x : CharMode) (ch : Nat) (sh c : Code)
      (hs : aztecShift T A x = some sh) (hc : aztecChar T x ch = some c) :
      Encoding T (t ++ [ch]) (.chr A) A (bits ++ emitted [sh, c])
  | binary {t m A bits} (h : Encoding T t m A bits) (r : CharMode) (hr : r ∈ aztecBsFrom T) (bytes : List Nat)
      (h1 : 1 ≤ bytes.length) (h2 : bytes.length ≤ 2078) :
      Encoding T (t ++ bytes) .bin r (bits ++ emitted (aztecLatch T A r) ++ emitted [T.bsCode] ++ runLength bytes.length ++
        (bytes.map (msbFirst 8)).flatten)
  | pairLatch {t m A bits} (h : Encoding T t m A bits) (c1 c2 pc : Nat) (hp : aztecPair T c1 c2 = some pc) :
      Encoding T (t ++ [c1, c2]) (.chr .punct) .punct
        (bits ++ emitted (aztecLatch T A .punct) ++ emitted [⟨pc, T.widths.get CharMode.punct.index⟩])
  | pairShift {t m A bits} (h : Encoding T t m A bits) (c1 c2 pc : Nat) (sh : Code) (hp : aztecPair T c1 c2 = some pc)
      (hs : aztecShift T A .punct = some sh) :
      Encoding T (t ++ [c1, c2]) (.chr A) A (bits ++ emitted [sh, ⟨pc, T.widths.get CharMode.punct.index⟩])

/-- Slot `m` of the last bank of a text is filled, at a cost no higher than the stuffed length of `bits` (46_mode_encoder.md
R342, R343): what a relaxation with `bits` leaves. -/
def SlotWithin (T : AztecTables) (w : BitVec 5) (text : List Nat) (m : Mode) (bits : List Bool) : Prop :=
  ∃ sl, bankGet (finalBank T w text) m = some sl ∧ sl.cost ≤ stuffedCost w bits

/-- The current character mode of a filled slot (46_mode_encoder.md R344): its own, or for slot B the return mode. -/
def IsCurrentMode (m : Mode) (sl : Slot) (A : CharMode) : Prop :=
  m = .chr A ∨ (m = .bin ∧ ∃ r, sl.binRun = some r ∧ r.ret = A)

/-- The words of the encoding MENC chooses for the text at S[raddr], before and after padding, fit the stream buffer
(46_mode_encoder.md R350). -/
def MencFits (s : State) (raddr rn rw : SReg) : Prop :=
  ∀ p ws, (Packer.init (BitVec.ofNat 5 (s.sreg rw).toNat) false).run
      (chosenSlot (finalBank s.cfg.aztec (BitVec.ofNat 5 (s.sreg rw).toNat)
        ((Memory.readBlock s.dmem (s.sreg raddr).toNat (s.sreg rn).toNat).map (fun v => v.toNat)))).2.bits = (p, ws) →
    ws.length ≤ 4096 ∧ (p.bacurlen = 0 ∨ ws.length < 4096)

/-- The checks of a command in the order of its rule, each with the cause it raises (40_support.md to 46_mode_encoder.md). -/
def checksOf (i : Instr) (s : State) : List (Prop × Cause) :=
  match i with
  | .nop | .li _ _ | .lih _ _ | .mov _ _ => []
  | .ldw _ ra | .stw _ ra => [((s.sreg ra).toNat < s.cfg.dmemWords, .memRange)]
  | .rdcsr _ n => [(n.toNat ≤ 0x015, .illegalCommand)]
  | .fcfg rsize rgen rbase =>
    [(LegalField (s.sreg rsize).toNat (s.sreg rgen).toNat (s.sreg rbase).toNat, .configError)]
  | .gadd _ rx ry | .gmul _ rx ry => [fieldCheck s, elemCheck s rx, elemCheck s ry]
  | .ginv _ rx | .glog _ rx => [fieldCheck s, elemCheck s rx, (elemOf (s.sreg rx) ≠ 0, .zeroInverse)]
  | .gdiv _ rx ry => [fieldCheck s, elemCheck s rx, elemCheck s ry, (elemOf (s.sreg ry) ≠ 0, .zeroInverse)]
  | .gexp _ _ | .pzero _ | .pone _ | .padd _ _ | .pdeg _ _ | .plead _ _ | .pconst _ _ | .pcoef _ _ _ | .pcopy _ _
  | .pzeros _ _ => [fieldCheck s]
  | .pmono _ rdeg rk =>
    [fieldCheck s, elemCheck s rk, (elemOf (s.sreg rk) = 0 ∨ (s.sreg rdeg).toNat < 4096, .polyOverflow)]
  | .pmul _ qx qy =>
    [fieldCheck s,
      (s.qreg qx = [0] ∨ s.qreg qy = [0] ∨ (s.qreg qx).length + (s.qreg qy).length ≤ 4097, .polyOverflow)]
  | .pscal _ rk => [fieldCheck s, elemCheck s rk]
  | .pshift qd rk =>
    [fieldCheck s, (s.qreg qd = [0] ∨ (s.qreg qd).length + (s.sreg rk).toNat ≤ 4096, .polyOverflow)]
  | .peval _ _ rx => [fieldCheck s, elemCheck s rx]
  | .pld _ raddr rn =>
    [fieldCheck s, ((s.sreg rn).toNat ≤ 4096, .polyOverflow), blockCheck s raddr (s.sreg rn).toNat,
      wordsCheck s raddr (s.sreg rn).toNat s.field.size.toNat]
  | .pst _ q raddr => [fieldCheck s, blockCheck s raddr (s.qreg q).length]
  | .rsgen _ rp => [fieldCheck s, parityCheck s rp]
  | .rsenc qg rmsg rl rdst =>
    [fieldCheck s, ((s.qreg qg).head? = some 1, .operandRange), blockCheck s rmsg (s.sreg rl).toNat,
      blockCheck s rdst ((s.sreg rl).toNat + deg (s.qreg qg)), wordsCheck s rmsg (s.sreg rl).toNat s.field.size.toNat]
  | .rssyn _ raddr rn rp | .rsdec _ raddr rn rp =>
    [fieldCheck s, parityCheck s rp, blockCheck s raddr (s.sreg rn).toNat,
      wordsCheck s raddr (s.sreg rn).toNat s.field.size.toNat]
  | .rseuc qsig qomg _ rp =>
    [(qsig ≠ qomg, .illegalCommand), fieldCheck s, (s.sreg rp ≠ 0, .operandRange), parityCheck s rp]
  | .rsfix _ raddr rn _ =>
    [fieldCheck s, blockCheck s raddr (s.sreg rn).toNat, wordsCheck s raddr (s.sreg rn).toNat s.field.size.toNat]
  | .rbst _ raddr => [fieldCheck s, blockCheck s raddr s.rbuf.length]
  | .bainit rw _ => [(2 ≤ (s.sreg rw).toNat ∧ (s.sreg rw).toNat ≤ 16, .baConfig)]
  | .baapp rv rn =>
    [(s.stream.packer.baw ≠ 0, .baConfig), ((s.sreg rn).toNat ≤ 32, .operandRange),
      (∀ p ws, s.stream.packer.run (msbFirst (s.sreg rn).toNat (s.sreg rv).toNat) = (p, ws) →
        ws = [] ∨ s.stream.words.length + ws.length ≤ 4096, .bsOverflow)]
  | .bapad =>
    [(s.stream.packer.baw ≠ 0, .baConfig), (s.stream.packer.bacurlen = 0 ∨ s.stream.words.length < 4096, .bsOverflow)]
  | .bast _ raddr => [blockCheck s raddr s.stream.words.length]
  | .menc _ raddr rn rw =>
    [((s.sreg rw).toNat ∈ [6, 8, 10, 12], .mencConfig), ((s.sreg rn).toNat ≤ 65535, .operandRange),
      blockCheck s raddr (s.sreg rn).toNat, wordsCheck s raddr (s.sreg rn).toNat 256, (MencFits s raddr rn rw, .bsOverflow)]
  | .mslot _ rm => [((s.sreg rm).toNat ≤ 5, .operandRange)]

/-- The cause of the first check of a list that fails, if one does (60_exceptions.md R402). -/
def FirstFailing : List (Prop × Cause) → Option Cause → Prop
  | [], o => o = none
  | k :: rest, o => (k.1 ∧ FirstFailing rest o) ∨ (¬ k.1 ∧ o = some k.2)

end Sys2Proof.Machine

open Sys2Proof Sys2Proof.Machine

/-! ### Encoding -/

/-- 30_encoding.md R121. -/
def Obligations.WorkedEncodings : Prop :=
  (decode 0x04400100 = .ok (.li 1 0x100) ∧ encode (.li 1 0x100) = 0x04400100) ∧
  (decode 0x0480011D = .ok (.li 2 0x11D) ∧ encode (.li 2 0x11D) = 0x0480011D) ∧
  (decode 0x40048C00 = .ok (.fcfg 1 2 3) ∧ encode (.fcfg 1 2 3) = 0x40048C00) ∧
  (decode 0x48C48000 = .ok (.gmul 3 1 2) ∧ encode (.gmul 3 1 2) = 0x48C48000) ∧
  (decode 0xCC8C5400 = .ok (.rseuc 2 3 1 5) ∧ encode (.rseuc 2 3 1 5) = 0xCC8C5400) ∧
  (decode 0x19000001 = .ok (.rdcsr 4 1) ∧ encode (.rdcsr 4 1) = 0x19000001) ∧
  (decode 0xE0040001 = .ok (.bainit 1 true) ∧ encode (.bainit 1 true) = 0xE0040001)

/-- Decoding undoes encoding, for every well-formed command and every operand (30_encoding.md R101 to R105, R110). -/
def Obligations.DecodeOfEncode : Prop :=
  ∀ i : Instr, i.wf = true → decode (encode i) = .ok i

/-- A word that decodes is the word of the command it decodes to, which is well formed (30_encoding.md R112, R114): no bit
of a legal word is dropped. -/
def Obligations.EncodeOfDecode : Prop :=
  ∀ (w : Word) (i : Instr), decode w = .ok i → encode i = w ∧ i.wf = true

/-- The decoder is the opcode map (30_encoding.md R110, R112, R113, R114): a word decodes to a command of the row whose match
and mask it meets, RSEUC with a = b is rejected by name, a word of no row is rejected, and a word with a reserved opcode is
rejected as such. -/
def Obligations.DecodeIsOpcodeMap : Prop :=
  ∀ w : Word,
    (∀ i, decode w = .ok i → ∃ row ∈ opcodeMap, row.mnemonic = mnemonicOf i ∧ w &&& row.mask = row.pattern) ∧
    (∀ row ∈ opcodeMap, w &&& row.mask = row.pattern →
      if row.opcode = 0x33 ∧ field w 22 4 = field w 18 4 then decode w = .error .rseucSameDestination
      else ∃ i, decode w = .ok i ∧ mnemonicOf i = row.mnemonic) ∧
    (((0x07 ≤ field w 26 6 ∧ field w 26 6 ≤ 0x0F) ∨ (0x17 ≤ field w 26 6 ∧ field w 26 6 ≤ 0x1F) ∨ field w 26 6 = 0x37 ∨
      field w 26 6 = 0x3E ∨ field w 26 6 = 0x3F) ↔ decode w = .error .reservedOpcode)

/-! ### The step, faults, the host port -/

/-- A step runs the command that the word it ends decodes to (70_reset_and_hazards.md R458). With no host operation pending that
is exactly the step, whether the word is executing already or is the oldest of the FIFO. With host operations pending the
step is that, or (log entries 7 and 22, free choices of R464) the oldest word is only taken, or the host operation that can
complete does. -/
def Obligations.StepRunsDecodedCommand : Prop :=
  ∀ (s : State) (w : Word) (i : Instr), s.faulted = false → decode w = .ok i →
    (s.running = some w →
      (s.hostIn = [] → step s = exec i { s with running := none }) ∧
      (s.hostIn ≠ [] →
        step s = exec i { s with running := none, freeCount := s.freeCount + 1 } ∨
        ∃ op left, hostReady s = some (op, left) ∧
          step s = .next (hostStep op left { s with freeCount := s.freeCount + 1 }))) ∧
    (∀ rest, s.running = none → s.fifo = w :: rest →
      (s.hostIn = [] → step s = exec i { s with fifo := rest }) ∧
      (s.hostIn ≠ [] →
        step s = exec i { s with fifo := rest, freeCount := s.freeCount + 1 } ∨
        step s = .next { s with fifo := rest, running := some w, freeCount := s.freeCount + 1 } ∨
        ∃ op left, hostReady s = some (op, left) ∧
          step s = .next (hostStep op left { s with freeCount := s.freeCount + 1 })))

/-- A word that is no command faults with ILLEGAL_COMMAND and has no other effect (30_encoding.md R112, R113), whether it is the
oldest of the FIFO or taken already. With no host operation pending that is exactly the step; with host operations pending
the step is that, or (log entries 7 and 22, free choices of R464) the word is only taken, or the host operation that can
complete does. -/
def Obligations.IllegalWordFaults : Prop :=
  ∀ (s : State) (w : Word) (e : DecodeError), s.faulted = false → decode w = .error e →
    (s.running = some w →
      (s.hostIn = [] → step s = .next { s with running := none, cause := 0x01, fcmd := w, faulted := true }) ∧
      (s.hostIn ≠ [] →
        step s = .next { s with running := none, cause := 0x01, fcmd := w, faulted := true, freeCount := s.freeCount + 1 } ∨
        ∃ op left, hostReady s = some (op, left) ∧
          step s = .next (hostStep op left { s with freeCount := s.freeCount + 1 }))) ∧
    (∀ rest, s.running = none → s.fifo = w :: rest →
      (s.hostIn = [] → step s = .next { s with fifo := rest, cause := 0x01, fcmd := w, faulted := true }) ∧
      (s.hostIn ≠ [] →
        step s = .next { s with fifo := rest, cause := 0x01, fcmd := w, faulted := true, freeCount := s.freeCount + 1 } ∨
        step s = .next { s with fifo := rest, running := some w, freeCount := s.freeCount + 1 } ∨
        ∃ op left, hostReady s = some (op, left) ∧
          step s = .next (hostStep op left { s with freeCount := s.freeCount + 1 })))

/-- The word placed by `withFetchWord` is the one the next step runs. -/
def Obligations.PlacedWordRunsNext : Prop :=
  ∀ (s : State) (nbits w : Nat) (i : Instr),
    decodeTableWord nbits w = some i →
    ∃ u, step (s.withFetchWord nbits w) = exec i u ∧ u.sregs = s.sregs ∧ u.qregs = s.qregs ∧ u.field = s.field ∧
      u.rbuf = s.rbuf ∧ u.stream = s.stream ∧ u.menc = s.menc ∧ u.dmem = s.dmem ∧ u.cmdcnt = s.cmdcnt ∧
      u.faulted = false ∧ u.running = none ∧ u.fifo = s.fifo.tail ∧ u.hostIn = []

/-- Every command ends in a next state, whatever the state and the operands: it retires or its fault is recorded
(70_reset_and_hazards.md R462, R463). -/
def Obligations.EveryCommandEnds : Prop :=
  ∀ (i : Instr) (s : State), ∃ t, exec i s = .next t ∧ EndsCommand i s t

/-- Which commands complete and which fault, and with what cause (60_exceptions.md R400 to R402, R411, R412): a command whose
checks, in the order of its rule, all hold retires; any other takes the cause of the first that fails, with its code of the
table; and the model's codes are the table's. -/
def Obligations.CommandChecks : Prop :=
  (∀ c, causeCode c = faultCode c) ∧
  ∀ (i : Instr) (s : State) (o : Option Cause), FirstFailing (checksOf i s) o →
    ∃ t, exec i s = .next t ∧
      match o with
      | none => t.cmdcnt = s.cmdcnt + 1 ∧ t.faulted = s.faulted ∧ t.cause = s.cause ∧ t.fcmd = s.fcmd
      | some c => t.cmdcnt = s.cmdcnt ∧ t.faulted = true ∧ t.cause = faultCode c ∧ t.fcmd = encode i

/-- What a word that faults leaves (60_exceptions.md R411), whatever host operations are pending. That a FAULTED core with no
host operation to complete leaves its state as it is, and that the operation `hostReady` picks is the one that completes,
are the model's choices (log entries 5 and 6). -/
def Obligations.FaultRecording : Prop :=
  ∀ (s t : State) (w : Word), s.faulted = false → runWord w s = .next t → t.faulted = true →
    (∀ i, decode w = .ok i → ∃ c, FirstFailing (checksOf i s) (some c) ∧ t.cause = faultCode c) ∧
    (∀ e, decode w = .error e → t.cause = faultCode .illegalCommand) ∧ t.fcmd = w ∧ t.executor = .faulted ∧
    (∃ v, csrFromHost t 0x001 = some v ∧ v.getLsbD 0 = false ∧ v.getLsbD 1 = true) ∧ t.fifo = s.fifo ∧
    (hostReady t = none → step t = .next t) ∧
    (∀ op left, hostReady t = some (op, left) → step t = .next (hostStep op left t)) ∧ t.cmdcnt = s.cmdcnt

/-- 60_exceptions.md R410, with the recording of R411: FCFG, whose one fault is CONFIG_ERROR, leaves no field (41_field.md
R155); every other word leaves the whole state but the recording. -/
def Obligations.FaultHasNoOtherEffect : Prop :=
  ∀ (s t : State) (w : Word), s.faulted = false → runWord w s = .next t → t.faulted = true →
    ((∃ a b c, decode w = .ok (.fcfg a b c)) →
      t = { s with field := FieldCfg.none, qregs := Vector.replicate 8 [0], rbuf := [], cause := faultCode .configError,
                   fcmd := w, faulted := true }) ∧
    ((∀ a b c, decode w ≠ .ok (.fcfg a b c)) → t = { s with cause := t.cause, fcmd := w, faulted := true })

/-- 10_state.md R43. -/
def Obligations.CommandCounter : Prop :=
  (∀ (i : Instr) (s t : State), s.faulted = false → exec i s = .next t →
    t.cmdcnt = (if t.faulted then s.cmdcnt else s.cmdcnt + 1)) ∧
  (∀ (rd : SReg) (s : State), ∃ t, exec (.rdcsr rd 0x004) s = .next t ∧ t.sreg rd = s.cmdcnt ∧ t.cmdcnt = s.cmdcnt + 1) ∧
  (∀ (s : State) (w : Word) (e : DecodeError), decode w = .error e →
    ∃ t, runWord w s = .next t ∧ t.cmdcnt = s.cmdcnt) ∧
  State.reset.cmdcnt = 0

/-- 60_exceptions.md R414 and the soft reset it yields to (70_reset_and_hazards.md R452): what a write of CTRL does whenever it
completes, a command executing or not, and that it completes at once while the executor is FAULTED or IDLE (20_memory.md
R86). That the oldest pending host operation goes first is the model's choice (log entry 6), and so is when it completes
among commands (log entry 7). -/
def Obligations.ControlWrites : Prop :=
  ∀ (s : State) (v : Word) (left : List HostOp),
    (v.getLsbD 1 = true → hostStep (.writeCtrl v) left s =
      { State.reset with dmem := s.dmem, cfg := s.cfg, hostIn := left, hostOut := s.hostOut, freeCount := s.freeCount }) ∧
    (v.getLsbD 1 = false → v.getLsbD 0 = true → s.faulted = true →
      hostStep (.writeCtrl v) left s = { s with cause := 0, faulted := false, hostIn := left } ∧
      (FaultOk s → s.fifo = [] → (hostStep (.writeCtrl v) left s).executor = .idle) ∧
      (∀ w rest, FaultOk s → s.fifo = w :: rest → (hostStep (.writeCtrl v) left s).executor = .busy ∧
        step (hostStep (.writeCtrl v) [] s) = runWord w { s with cause := 0, faulted := false, hostIn := [], fifo := rest })) ∧
    (v.getLsbD 1 = false → v.getLsbD 0 = true → s.faulted = false →
      hostStep (.writeCtrl v) left s = { s with hostIn := left }) ∧
    (v.getLsbD 1 = false → v.getLsbD 0 = false → hostStep (.writeCtrl v) left s = { s with hostIn := left }) ∧
    (s.hostIn = .writeCtrl v :: left → s.executor ≠ .busy → step s = .next (hostStep (.writeCtrl v) left s))

/-- The host port (20_memory.md R85, R86, 10_state.md R51): which operations are held, that the operation `hostReady` gives
completes in a step while the executor is not BUSY, and all that each does (a write of CTRL apart, for which see
ControlWrites). The order in which pending operations are served is the model's (log entry 6), and a reserved CSR number
reads a free value (log entry 8). -/
def Obligations.HostPort : Prop :=
  (∀ (s : State) (op : HostOp) (rest : List HostOp), s.hostIn = op :: rest →
    (neverHeld op = true → hostReady s = some (op, rest)) ∧
    (∀ a, op = .readDmem a → ((hostReady s = some (op, rest)) ↔ s.executor ≠ .busy)) ∧
    (∀ a v, op = .writeDmem a v → ((hostReady s = some (op, rest)) ↔ s.executor ≠ .busy)) ∧
    (∀ w, op = .pushCmd w → ((hostReady s = some (op, rest)) ↔ s.fifo.length < s.cfg.cmdqDepth))) ∧
  (∀ v n, neverHeld (.writeCtrl v) = true ∧ neverHeld (.readCsr n) = true ∧ neverHeld .readCmd = true ∧
    neverHeld .readCtrl = true) ∧
  (∀ (s : State) (op : HostOp) (left : List HostOp), s.executor ≠ .busy → hostReady s = some (op, left) →
    step s = .next (hostStep op left s)) ∧
  (∀ (s : State) (left : List HostOp),
    (∀ n, n ≤ 0x015 → ∃ v, csrFromHost s n = some v ∧
      hostStep (.readCsr n) left s = { s with hostIn := left, hostOut := s.hostOut ++ [v] }) ∧
    (∀ n, 0x015 < n → ∃ v, hostStep (.readCsr n) left s =
      { s with hostIn := left, hostOut := s.hostOut ++ [v], freeCount := s.freeCount + 1 }) ∧
    (∀ op ∈ [HostOp.readCmd, .readCtrl], hostStep op left s = { s with hostIn := left, hostOut := s.hostOut ++ [0] }) ∧
    (∀ w, hostStep (.pushCmd w) left s = { s with hostIn := left, fifo := s.fifo ++ [w] }) ∧
    (∀ a, a < s.cfg.dmemWords → hostStep (.readDmem a) left s =
      { s with hostIn := left, hostOut := s.hostOut ++ [(Memory.read s.dmem a).setWidth 32] }) ∧
    (∀ a, s.cfg.dmemWords ≤ a → hostStep (.readDmem a) left s = { s with hostIn := left, hostOut := s.hostOut ++ [0] }) ∧
    (∀ a v, a < s.cfg.dmemWords → ∃ m, hostStep (.writeDmem a v) left s = { s with hostIn := left, dmem := m } ∧
      Memory.read m a = v ∧ ∀ b, b ≠ a → Memory.read m b = Memory.read s.dmem b) ∧
    (∀ a v, s.cfg.dmemWords ≤ a → hostStep (.writeDmem a v) left s = { s with hostIn := left }))

/-- The reset state (10_state.md R52), the values the spec gives. -/
def Obligations.ResetState : Prop :=
  (∀ r, State.reset.sreg r = 0) ∧ (∀ q, State.reset.qreg q = [0]) ∧ State.reset.fifo = [] ∧ State.reset.running = none ∧
  State.reset.executor = .idle ∧
  (∀ n, 1 ≤ n → n ≤ 0x015 → csrFromHost State.reset n = some 0) ∧ csrFromHost State.reset 0 = some 0x47414201 ∧
  State.reset.rbuf = [] ∧ State.reset.stream.words = [] ∧ (∀ m : Fin 6, State.reset.menc.mslots.get m = none)

/-- 10_state.md R39: no state changes what ID reads, by command or by the host. -/
def Obligations.IdRegister : Prop :=
  (∀ (rd : SReg) (s : State), exec (.rdcsr rd 0x000) s = .next (retire (s.setS rd 0x47414201))) ∧
  (∀ s : State, (hostReadCsr 0 s).hostOut = s.hostOut ++ [0x47414201]) ∧
  (0x47414201 : Word).extractLsb' 24 8 = 0x47 ∧ (0x47414201 : Word).extractLsb' 16 8 = 0x41 ∧
  (0x47414201 : Word).extractLsb' 8 8 = 0x42 ∧ (0x47414201 : Word).extractLsb' 0 8 = 0x01

/-! ### Support commands -/

/-- 40_support.md R130, R131, R132. -/
def Obligations.NopAndImmediates : Prop :=
  (∀ s : State, exec .nop s = .next (retire s)) ∧ decode 0x00000000 = .ok .nop ∧
  (∀ (s : State) (w : Word), field w 26 6 = 0x00 → w ≠ 0 → runWord w s = .next (takeFault w .illegalCommand s)) ∧
  (∀ (rd : SReg) (imm : BitVec 16) (s : State), exec (.li rd imm) s = .next (retire (s.setS rd (imm.setWidth 32)))) ∧
  (∀ (rd : SReg) (s : State), exec (.li rd 0xFFFF) s = .next (retire (s.setS rd 0x0000FFFF))) ∧
  decode 0x04400100 = .ok (.li 1 0x100) ∧
  (∀ (rd : SReg) (imm : BitVec 16) (s : State), exec (.lih rd imm) s =
    .next (retire (s.setS rd (((imm.setWidth 32) <<< 16) ||| (s.sreg rd &&& 0xFFFF))))) ∧
  decode 0x08400001 = .ok (.lih 1 0x0001) ∧
  (∀ (rd : SReg) (v : Word) (s t u : State), exec (.li rd (v.extractLsb' 0 16)) s = .next t →
    exec (.lih rd (v.extractLsb' 16 16)) t = .next u → u.sreg rd = v) ∧
  (∀ (s : State) (w : Word), (field w 26 6 = 0x01 ∨ field w 26 6 = 0x02) → field w 16 6 ≠ 0 →
    runWord w s = .next (takeFault w .illegalCommand s))

/-- MOV, LDW and STW (40_support.md R133 to R135): they complete, LDW and STW for every address below DMEM_WORDS, and
fault with MEM_RANGE at every other. -/
def Obligations.MoveLoadStore : Prop :=
  ∀ (s : State) (r ra : SReg),
    exec (.mov r ra) s = .next (retire (s.setS r (s.sreg ra))) ∧
    ((s.sreg ra).toNat < s.cfg.dmemWords →
      exec (.ldw r ra) s = .next (retire (s.setS r ((Memory.read s.dmem (s.sreg ra).toNat).setWidth 32))) ∧
      ∃ m, exec (.stw r ra) s = .next (retire (s.setMem m)) ∧
        Memory.read m (s.sreg ra).toNat = (s.sreg r).extractLsb' 0 16 ∧
        ∀ a, a ≠ (s.sreg ra).toNat → Memory.read m a = Memory.read s.dmem a) ∧
    (s.cfg.dmemWords ≤ (s.sreg ra).toNat →
      exec (.ldw r ra) s = .next (takeFault (encode (.ldw r ra)) .memRange s) ∧
      exec (.stw r ra) s = .next (takeFault (encode (.stw r ra)) .memRange s))

/-- RDCSR, host reads of CSRs and STATUS (40_support.md R138, 10_state.md R38, R40): every number of the map reads the register
the map names, by command and from the host, and any other number faults with ILLEGAL_COMMAND; STATUS reads BUSY = 1 and FAULT = 0
to a command, and to the host BUSY and FAULT by the executor, never both. RCOUNT and BANW are 13 bits wide; every state that
meets RbufOk and StreamOk has both counts below 2^13. -/
def Obligations.CsrReads : Prop :=
  (∀ (s : State) (rd : SReg) (n : Nat) (v : Word), (n, v) ∈ csrTable s →
    (n = 0x009 → s.rbuf.length < 2 ^ 13) → (n = 0x00D → s.stream.words.length < 2 ^ 13) →
    exec (.rdcsr rd (BitVec.ofNat 10 n)) s = .next (retire (s.setS rd v)) ∧ csrFromHost s n = some v) ∧
  (∀ (s : State) (rd : SReg), ∃ v, csrInCommand s 0x001 = some v ∧ exec (.rdcsr rd 0x001) s = .next (retire (s.setS rd v))) ∧
  (∀ (s : State) (rd : SReg) (n : BitVec 10), 0x015 < n.toNat →
    exec (.rdcsr rd n) s = .next (takeFault (encode (.rdcsr rd n)) .illegalCommand s)) ∧
  (∀ (s : State) (k : Nat), ∃ v u, csrInCommand s 0x001 = some v ∧ csrFromHost s 0x001 = some u ∧
    v.getLsbD 0 = true ∧ v.getLsbD 1 = false ∧
    u.getLsbD 0 = decide (s.faulted = false ∧ (s.running ≠ none ∨ s.fifo ≠ [])) ∧ u.getLsbD 1 = s.faulted ∧
    v.getLsbD 2 = s.field.valid ∧ v.getLsbD 3 = s.synz ∧ v.getLsbD 4 = s.eucfail ∧
    v.extractLsb' 5 2 = (match s.dstat with | .noErrors => 0 | .corrected => 1 | .uncorrectable => 2) ∧
    (7 ≤ k → v.getLsbD k = false) ∧ (2 ≤ k → u.getLsbD k = v.getLsbD k))

/-! ### The field -/

/-- FCFG (41_field.md R150 to R155): on legal operands it completes with the field's registers, tables that hold the powers of
2 and their logarithms, cleared polynomial registers and RCOUNT 0; on any other it faults with CONFIG_ERROR and leaves
no field. -/
def Obligations.FcfgBuildsField : Prop :=
  ∀ (s : State) (rsize rgen rbase : SReg) (size gen base : Nat),
    size = (s.sreg rsize).toNat → gen = (s.sreg rgen).toNat → base = (s.sreg rbase).toNat →
    (LegalField size gen base →
      ∃ F, exec (.fcfg rsize rgen rbase) s = .next (retire { s with field := F, qregs := Vector.replicate 8 [0], rbuf := [] }) ∧
        F.valid = true ∧ F.size.toNat = size ∧ 2 ^ F.m.toNat = size ∧ F.gen.toNat = gen ∧ F.base.toNat = base ∧
        (∀ i, i < size → (expAt F i).toNat = powerRef size gen i) ∧
        (∀ i, i < size - 1 → logAt F (expAt F i) = i)) ∧
    (¬ LegalField size gen base →
      exec (.fcfg rsize rgen rbase) s = .next (takeFault (encode (.fcfg rsize rgen rbase)) .configError
        { s with field := FieldCfg.none, qregs := Vector.replicate 8 [0], rbuf := [] }))

/-- 41_field.md R165. -/
def Obligations.FieldLaws : Prop :=
  ∀ F : FieldCfg, FieldOk F → F.valid = true → ∀ x y z : Elem, IsElem F x → IsElem F y → IsElem F z →
    x ^^^ y = y ^^^ x ∧ (x ^^^ y) ^^^ z = x ^^^ (y ^^^ z) ∧ x ^^^ 0 = x ∧ IsElem F (x ^^^ y) ∧
    gmul F x y = gmul F y x ∧ gmul F (gmul F x y) z = gmul F x (gmul F y z) ∧ gmul F x 1 = x ∧ IsElem F (gmul F x y) ∧
    gmul F x (y ^^^ z) = gmul F x y ^^^ gmul F x z ∧
    (x ≠ 0 → gmul F x (ginv F x) = 1)

/-- GMUL is multiplication modulo the generator (41_field.md R157): on two elements it completes with the product a
bit-serial multiplier computes, without the tables. -/
def Obligations.GmulIsModularProduct : Prop :=
  ∀ (s : State) (rd rx ry : SReg), FieldOk s.field → s.field.valid = true →
    (s.sreg rx).toNat < s.field.size.toNat → (s.sreg ry).toNat < s.field.size.toNat →
    exec (.gmul rd rx ry) s = .next (retire (s.setS rd (BitVec.ofNat 32
      (mulRef s.field.size.toNat s.field.gen.toNat (s.sreg rx).toNat 12 (s.sreg ry).toNat))))

/-- The other field commands complete on their operands with the values arithmetic gives (41_field.md R156 to R164): GADD the
XOR, GINV the inverse, GDIV the quotient, GEXP the power of 2, GLOG the exponent below FSIZE - 1. -/
def Obligations.FieldCommandValues : Prop :=
  ∀ (s : State) (rd rx ry : SReg), FieldOk s.field → s.field.valid = true →
    (∃ v : Elem, exec (.gexp rd rx) s = .next (retire (s.setS rd (v.setWidth 32))) ∧
      v.toNat = powerRef s.field.size.toNat s.field.gen.toNat ((s.sreg rx).toNat % (s.field.size.toNat - 1))) ∧
    ((s.sreg rx).toNat < s.field.size.toNat → (s.sreg ry).toNat < s.field.size.toNat →
      exec (.gadd rd rx ry) s = .next (retire (s.setS rd (s.sreg rx ^^^ s.sreg ry))) ∧
      (s.sreg ry ≠ 0 → ∃ v : Elem, IsElem s.field v ∧ exec (.gdiv rd rx ry) s = .next (retire (s.setS rd (v.setWidth 32))) ∧
        gmul s.field v (elemOf (s.sreg ry)) = elemOf (s.sreg rx)) ∧
      (s.sreg rx ≠ 0 → ∃ v : Elem, IsElem s.field v ∧ exec (.ginv rd rx) s = .next (retire (s.setS rd (v.setWidth 32))) ∧
        gmul s.field (elemOf (s.sreg rx)) v = 1) ∧
      (s.sreg rx ≠ 0 → ∃ k, k < s.field.size.toNat - 1 ∧ exec (.glog rd rx) s = .next (retire (s.setS rd (BitVec.ofNat 32 k))) ∧
        powerRef s.field.size.toNat s.field.gen.toNat k = (s.sreg rx).toNat))

/-! ### Polynomials -/

/-- PZERO, PONE, PMONO and PCOPY complete (42_polynomial.md R184 to R186, R196), PMONO for every element k that is 0 or comes
with a degree below 4096; otherwise PMONO faults with POLY_OVERFLOW. -/
def Obligations.PolyFactories : Prop :=
  ∀ (s : State) (qd qs : QReg) (rdeg rk : SReg), s.field.valid = true →
    exec (.pzero qd) s = .next (retire (s.setQ qd [0])) ∧
    exec (.pone qd) s = .next (retire (s.setQ qd [1])) ∧
    exec (.pcopy qd qs) s = .next (retire (s.setQ qd (s.qreg qs))) ∧
    ((s.sreg rk).toNat < s.field.size.toNat → s.sreg rk = 0 → exec (.pmono qd rdeg rk) s = .next (retire (s.setQ qd [0]))) ∧
    ((s.sreg rk).toNat < s.field.size.toNat → elemOf (s.sreg rk) ≠ 0 → (s.sreg rdeg).toNat < 4096 →
      exec (.pmono qd rdeg rk) s =
        .next (retire (s.setQ qd (elemOf (s.sreg rk) :: List.replicate (s.sreg rdeg).toNat 0)))) ∧
    ((s.sreg rk).toNat < s.field.size.toNat → elemOf (s.sreg rk) ≠ 0 → 4096 ≤ (s.sreg rdeg).toNat →
      exec (.pmono qd rdeg rk) s = .next (takeFault (encode (.pmono qd rdeg rk)) .polyOverflow s))

/-- PADD, PMUL, PSCAL and PSHIFT complete with the polynomial whose coefficients algebra gives, in normal form
(42_polynomial.md R187 to R190); PMUL and PSHIFT where the result fits, else they fault with POLY_OVERFLOW. -/
def Obligations.PolyAlgebra : Prop :=
  ∀ (s : State) (qd qx qy : QReg) (rk : SReg), FieldOk s.field → s.field.valid = true → QregsOk s →
    (∃ r, exec (.padd qd qx) s = .next (retire (s.setQ qd r)) ∧ PolyOk s.field r ∧
      ∀ k, coef r k = coef (s.qreg qd) k ^^^ coef (s.qreg qx) k) ∧
    (s.qreg qx = [0] ∨ s.qreg qy = [0] ∨ deg (s.qreg qx) + deg (s.qreg qy) < 4096 →
      ∃ r, exec (.pmul qd qx qy) s = .next (retire (s.setQ qd r)) ∧ PolyOk s.field r ∧
        ∀ k, coef r k = xorAll ((List.range (k + 1)).map (fun i => gmul s.field (coef (s.qreg qx) i) (coef (s.qreg qy) (k - i))))) ∧
    (s.qreg qx ≠ [0] → s.qreg qy ≠ [0] → 4096 ≤ deg (s.qreg qx) + deg (s.qreg qy) →
      exec (.pmul qd qx qy) s = .next (takeFault (encode (.pmul qd qx qy)) .polyOverflow s)) ∧
    ((s.sreg rk).toNat < s.field.size.toNat →
      ∃ r, exec (.pscal qd rk) s = .next (retire (s.setQ qd r)) ∧ PolyOk s.field r ∧
        ∀ k, coef r k = gmul s.field (coef (s.qreg qd) k) (elemOf (s.sreg rk))) ∧
    (s.qreg qd = [0] ∨ deg (s.qreg qd) + (s.sreg rk).toNat < 4096 →
      ∃ r, exec (.pshift qd rk) s = .next (retire (s.setQ qd r)) ∧ PolyOk s.field r ∧
        ∀ k, coef r k = (if k < (s.sreg rk).toNat then 0 else coef (s.qreg qd) (k - (s.sreg rk).toNat))) ∧
    (s.qreg qd ≠ [0] → 4096 ≤ deg (s.qreg qd) + (s.sreg rk).toNat →
      exec (.pshift qd rk) s = .next (takeFault (encode (.pshift qd rk)) .polyOverflow s))

/-- Evaluation is a ring homomorphism at every element (42_polynomial.md R200). -/
def Obligations.EvaluationHomomorphism : Prop :=
  ∀ (F : FieldCfg) (p q : Poly) (x : Elem), FieldOk F → F.valid = true → PolyOk F p → PolyOk F q → IsElem F x →
    peval F (padd p q) x = peval F p x ^^^ peval F q x ∧
    peval F (pmul F p q) x = gmul F (peval F p x) (peval F q x)

/-- The polynomial reads complete (42_polynomial.md R191 to R195): PEVAL at every element with the XOR of the coefficients times
the powers of x, PDEG, PLEAD, PCONST and PCOEF always. -/
def Obligations.PolyReads : Prop :=
  ∀ (s : State) (rd rx : SReg) (q : QReg), FieldOk s.field → s.field.valid = true → QregsOk s →
    (∃ v : Elem, exec (.plead rd q) s = .next (retire (s.setS rd (v.setWidth 32))) ∧ some v = (s.qreg q).head? ∧
      v = coef (s.qreg q) (deg (s.qreg q))) ∧
    exec (.pdeg rd q) s = .next (retire (s.setS rd (BitVec.ofNat 32 ((s.qreg q).length - 1)))) ∧
    (∃ v : Elem, exec (.pconst rd q) s = .next (retire (s.setS rd (v.setWidth 32))) ∧ some v = (s.qreg q).getLast?) ∧
    exec (.pcoef rd q rx) s = .next (retire (s.setS rd ((coef (s.qreg q) (s.sreg rx).toNat).setWidth 32))) ∧
    ((s.sreg rx).toNat < s.field.size.toNat →
      ∃ v : Elem, exec (.peval rd q rx) s = .next (retire (s.setS rd (v.setWidth 32))) ∧
        v = xorAll ((List.range (s.qreg q).length).map (fun k =>
          gmul s.field (coef (s.qreg q) k) (elemPow s.field (elemOf (s.sreg rx)) k)))) ∧
    (s.field.size.toNat ≤ (s.sreg rx).toNat →
      exec (.peval rd q rx) s = .next (takeFault (encode (.peval rd q rx)) .operandRange s))

/-- PZEROS completes and lists exactly the nonzero roots, each once, by increasing exponent (42_polynomial.md R199). -/
def Obligations.PzerosListsRoots : Prop :=
  ∀ (s : State) (rd : SReg) (q : QReg), FieldOk s.field → s.field.valid = true →
    ∃ roots, exec (.pzeros rd q) s = .next (retire ((s.setRbuf roots).setS rd (BitVec.ofNat 32 roots.length))) ∧
      (∀ x, x ∈ roots ↔ x ≠ 0 ∧ IsElem s.field x ∧ peval s.field (s.qreg q) x = 0) ∧
      roots.Pairwise (fun x y => logAt s.field x < logAt s.field y)

/-- PST and PLD complete (42_polynomial.md R197, R198): PST stores the coefficients highest degree first and returns their
number; PLD of a readable block gives the normal form of its words; PLD of what PST stored gives the polynomial back; the
length check of PLD comes before its range check. -/
def Obligations.PolyTransfer : Prop :=
  ∀ (s : State) (rd ra rn : SReg) (q qd : QReg), s.field.valid = true →
    (blockInRange s (s.sreg ra).toNat (s.qreg q).length →
      ∃ m, exec (.pst rd q ra) s = .next (retire ((s.setMem m).setS rd (BitVec.ofNat 32 (s.qreg q).length))) ∧
        ∀ i, (h : i < (s.qreg q).length) → Memory.read m ((s.sreg ra).toNat + i) = ((s.qreg q)[i]).setWidth 16) ∧
    ((s.sreg rn).toNat ≤ 4096 → ReadableElems s (s.sreg ra).toNat (s.sreg rn).toNat →
      exec (.pld qd ra rn) s = .next (retire (s.setQ qd (Machine.norm (blockElems s (s.sreg ra).toNat (s.sreg rn).toNat)))) ∧
      ∀ p, PolyOk s.field p → (∀ i, (h : i < p.length) → Memory.read s.dmem ((s.sreg ra).toNat + i) = (p[i]).setWidth 16) →
        (s.sreg rn).toNat = p.length → exec (.pld qd ra rn) s = .next (retire (s.setQ qd p))) ∧
    (4096 < (s.sreg rn).toNat → exec (.pld qd ra rn) s = .next (takeFault (encode (.pld qd ra rn)) .polyOverflow s)) ∧
    ((s.sreg rn).toNat ≤ 4096 → ¬ blockInRange s (s.sreg ra).toNat (s.sreg rn).toNat →
      exec (.pld qd ra rn) s = .next (takeFault (encode (.pld qd ra rn)) .memRange s))

/-! ### The Reed-Solomon encoder -/

/-- RSGEN completes for every parity count up to FSIZE - 1 with a monic polynomial of degree P whose roots include the P
consecutive powers of 2 from FBASE on (43_rs_encoder.md R230, R231). -/
def Obligations.RsgenRoots : Prop :=
  ∀ (s : State) (qd : QReg) (rp : SReg), FieldOk s.field → s.field.valid = true →
    ((s.sreg rp).toNat ≤ s.field.size.toNat - 1 →
      ∃ g, exec (.rsgen qd rp) s = .next (retire (s.setQ qd g)) ∧ PolyOk s.field g ∧ lead g = 1 ∧
        deg g = (s.sreg rp).toNat ∧
        ∀ i, i < (s.sreg rp).toNat → peval s.field g (alphaPow s.field (s.field.base.toNat + i)) = 0) ∧
    (s.field.size.toNat - 1 < (s.sreg rp).toNat →
      exec (.rsgen qd rp) s = .next (takeFault (encode (.rsgen qd rp)) .operandRange s))

/-- RSENC completes on a monic generator, a readable message and a destination in range, and stores the message, then deg(g)
parity words; the stored word, as a polynomial, is a multiple of g (43_rs_encoder.md R233, R234), so it is 0 at every root of
g. -/
def Obligations.RsencAppendsParity : Prop :=
  ∀ (s : State) (qg : QReg) (rmsg rl rdst : SReg), FieldOk s.field → s.field.valid = true → PolyOk s.field (s.qreg qg) →
    lead (s.qreg qg) = 1 → ReadableElems s (s.sreg rmsg).toNat (s.sreg rl).toNat →
    blockInRange s (s.sreg rdst).toNat ((s.sreg rl).toNat + deg (s.qreg qg)) →
    ∃ r : List Elem, r.length = deg (s.qreg qg) ∧ (∀ x ∈ r, IsElem s.field x) ∧
      exec (.rsenc qg rmsg rl rdst) s = .next (retire (s.setMem (Memory.writeBlock s.dmem (s.sreg rdst).toNat
        (elemHalves (blockElems s (s.sreg rmsg).toNat (s.sreg rl).toNat ++ r))))) ∧
      (∃ q, PolyOk s.field q ∧
        Machine.norm (blockElems s (s.sreg rmsg).toNat (s.sreg rl).toNat ++ r) = pmul s.field (s.qreg qg) q) ∧
      ∀ x, IsElem s.field x → peval s.field (s.qreg qg) x = 0 →
        peval s.field (blockElems s (s.sreg rmsg).toNat (s.sreg rl).toNat ++ r) x = 0

/-- A codeword RSENC made with the generator of RSGEN has all-zero syndromes, so RSDEC reports NO_ERRORS and leaves the word
(43_rs_encoder.md R235). -/
def Obligations.EncodedWordDecodes : Prop :=
  ∀ (s t : State) (qg : QReg) (rmsg rl rdst rn rp rd : SReg), FieldOk s.field → s.field.valid = true →
    (s.sreg rp).toNat ≤ s.field.size.toNat - 1 → s.qreg qg = genPoly s.field (s.sreg rp).toNat →
    s.sreg rn = BitVec.ofNat 32 ((s.sreg rl).toNat + (s.sreg rp).toNat) →
    (s.sreg rl).toNat + (s.sreg rp).toNat < 2 ^ 32 →
    s.faulted = false → exec (.rsenc qg rmsg rl rdst) s = .next t → t.faulted = false →
    ∃ u, exec (.rsdec rd rdst rn rp) t = .next u ∧ u.faulted = false ∧ u.synz = true ∧ u.dstat = .noErrors ∧
      u.sreg rd = 1 ∧ u.dnfix = 0 ∧ u.dmem = t.dmem

/-- The round-trip law (44_rs_decoder.md R284): for P >= 1 and a codeword of RSENC of length L + P <= FSIZE - 1 made with the
generator of RSGEN, of which at most P/2 words (rounded down) are replaced by other elements, RSDEC restores every word of
the codeword and changes no other word, and reports CORRECTED with the number of replaced words, or NO_ERRORS where none is. -/
def Obligations.RoundTrip : Prop :=
  ∀ (s t : State) (qg : QReg) (rmsg rl rdst rn rp rd : SReg) (a n P : Nat) (m : Memory) (errors : List Nat),
    FieldOk s.field → s.field.valid = true → P = (s.sreg rp).toNat → 1 ≤ P →
    n = (s.sreg rl).toNat + P → n ≤ s.field.size.toNat - 1 → (s.sreg rn).toNat = n → a = (s.sreg rdst).toNat →
    s.qreg qg = genPoly s.field P → s.faulted = false → exec (.rsenc qg rmsg rl rdst) s = .next t → t.faulted = false →
    (∀ v ∈ Memory.readBlock m a n, v.toNat < s.field.size.toNat) →
    errors = (List.range n).filter (fun i => decide (Memory.read m (a + i) ≠ Memory.read t.dmem (a + i))) →
    errors.length ≤ P / 2 →
    ∃ m', exec (.rsdec rd rdst rn rp) (t.setMem m) = .next (retire (((((t.setMem m').setSynz (decide (errors = []))).setDstat
        (if errors = [] then .noErrors else .corrected)).setDnfix errors.length).setS rd 1)) ∧
      (∀ i, i < n → Memory.read m' (a + i) = Memory.read t.dmem (a + i)) ∧
      (∀ b, b < a ∨ a + n ≤ b → Memory.read m' b = Memory.read m b)

/-! ### The Reed-Solomon decoder -/

/-- RSSYN completes on a readable word and P <= FSIZE - 1 (44_rs_decoder.md R251): the coefficient of x^i is the word evaluated at
the power FBASE + i of 2, and SYNZ says whether all are zero. -/
def Obligations.RssynSyndromes : Prop :=
  ∀ (s : State) (qs : QReg) (raddr rn rp : SReg), FieldOk s.field → s.field.valid = true →
    (s.sreg rp).toNat ≤ s.field.size.toNat - 1 → ReadableElems s (s.sreg raddr).toNat (s.sreg rn).toNat →
    ∃ p z, exec (.rssyn qs raddr rn rp) s = .next (retire ((s.setQ qs p).setSynz z)) ∧ PolyOk s.field p ∧
      (∀ i, coef p i = (if i < (s.sreg rp).toNat then
        peval s.field (blockElems s (s.sreg raddr).toNat (s.sreg rn).toNat) (alphaPow s.field (s.field.base.toNat + i)) else 0)) ∧
      (z = true ↔ ∀ i, i < (s.sreg rp).toNat → coef p i = 0)

/-- 44_rs_decoder.md R262, with the completion of RSEUC (R255): t is the solver's last t of R257 to R261. -/
def Obligations.RseucWritesEucfail : Prop :=
  (∀ (s : State) (qsig qomg qs : QReg) (rp : SReg), qsig ≠ qomg → s.field.valid = true →
    1 ≤ (s.sreg rp).toNat → (s.sreg rp).toNat ≤ s.field.size.toNat - 1 →
    ∃ e : EucState, e = eucLoop s.field (s.sreg rp).toNat (max (s.sreg rp).toNat (deg (s.qreg qs)) + 1)
        (eucInit (s.sreg rp).toNat (s.qreg qs)) ∧
      (coef e.t 0 = 0 → exec (.rseuc qsig qomg qs rp) s = .next (retire (s.setEucfail true))) ∧
      (coef e.t 0 ≠ 0 → exec (.rseuc qsig qomg qs rp) s = .next (retire (((s.setQ qsig
        (pscal s.field e.t (ginv s.field (coef e.t 0)))).setQ qomg
        (pscal s.field e.r (ginv s.field (coef e.t 0)))).setEucfail false)))) ∧
  (∀ (i : Instr) (s t : State), mnemonicOf i ≠ "RSEUC" → exec i s = .next t → t.eucfail = s.eucfail)

/-- The loops of EUCLID end by their own tests within the bound of 44_rs_decoder.md R263: the pass counts the model runs them on
(log entry 12, an inference of the model) cut nothing off. -/
def Obligations.EuclidBoundSuffices : Prop :=
  ∀ (F : FieldCfg) (P : Nat) (Sy : Poly), FieldOk F → F.valid = true → 1 ≤ P → P ≤ F.size.toNat - 1 → PolyOk F Sy →
    2 * deg (eucLoop F P (max P (deg Sy) + 1) (eucInit P Sy)).r < P ∧
    (∀ a b : Poly, PolyOk F a → PolyOk F b → 1 ≤ deg b →
      deg (divLoop F b (ginv F (lead b)) a.length a [0]).1 < deg b)

/-- A solution of RSEUC meets the key equation (44_rs_decoder.md R255, R261): for a syndrome polynomial of degree below P, sigma has
constant term 1, omega has degree below P/2, and sigma times the syndromes agrees with omega modulo x^P. -/
def Obligations.RseucKeyEquation : Prop :=
  ∀ (F : FieldCfg) (P : Nat) (Sy sigma omega : Poly), FieldOk F → F.valid = true → 1 ≤ P → P ≤ F.size.toNat - 1 →
    PolyOk F Sy → deg Sy < P → euclid F P Sy = some (sigma, omega) →
    coef sigma 0 = 1 ∧ 2 * deg omega < P ∧ PolyOk F sigma ∧ PolyOk F omega ∧
    ∀ k, k < P → coef (pmul F sigma Sy) k = coef omega k

/-- RSFIX completes on a readable word (44_rs_decoder.md R270 to R274); the roots of the buffer have distinct locators, every
denominator is nonzero, a word position a root locates is XORed with Forney's magnitude, the quotient of
omega(R[k])·R[k]^FBASE by the denominator, and a position no root locates keeps its value. -/
def Obligations.RsfixCorrects : Prop :=
  ∀ (s : State) (rd raddr rn : SReg) (qomg : QReg), FieldOk s.field → s.field.valid = true → RbufOk s → QregsOk s →
    ReadableElems s (s.sreg raddr).toNat (s.sreg rn).toNat →
    ∃ w : List Elem, ∃ cnt : Nat, w.length = (s.sreg rn).toNat ∧
      exec (.rsfix rd raddr rn qomg) s = .next (retire (((s.setMem (Memory.writeBlock s.dmem (s.sreg raddr).toNat
        (elemHalves w))).setDnfix cnt).setS rd (BitVec.ofNat 32 cnt))) ∧
      cnt = (s.rbuf.filter (fun r => decide (logAt s.field (ginv s.field r) < (s.sreg rn).toNat))).length ∧
      (s.rbuf.map (ginv s.field)).Nodup ∧
      (∀ k, (h : k < s.rbuf.length) → forneyDenom s.field s.rbuf k s.rbuf[k] ≠ 0) ∧
      (∀ pos, pos < (s.sreg rn).toNat →
        (∀ r ∈ s.rbuf, logAt s.field (ginv s.field r) ≠ (s.sreg rn).toNat - 1 - pos) →
        w[pos]? = (blockElems s (s.sreg raddr).toNat (s.sreg rn).toNat)[pos]?) ∧
      (∀ k, (h : k < s.rbuf.length) → ∀ pos, pos < (s.sreg rn).toNat →
        logAt s.field (ginv s.field s.rbuf[k]) = (s.sreg rn).toNat - 1 - pos →
        ∃ e, IsElem s.field e ∧
          w[pos]? = ((blockElems s (s.sreg raddr).toNat (s.sreg rn).toNat)[pos]?).map (fun v => v ^^^ e) ∧
          gmul s.field e (forneyDenom s.field s.rbuf k s.rbuf[k]) =
            gmul s.field (peval s.field (s.qreg qomg) s.rbuf[k]) (elemPow s.field s.rbuf[k] s.field.base.toNat))

/-- 44_rs_decoder.md R283, with the completion of RSDEC on a readable word and P <= FSIZE - 1. -/
def Obligations.RsdecOutcomes : Prop :=
  ∀ (s : State) (rd raddr rn rp : SReg) (w ss : List Elem), s.field.valid = true →
    (s.sreg rp).toNat ≤ s.field.size.toNat - 1 → ReadableElems s (s.sreg raddr).toNat (s.sreg rn).toNat →
    w = blockElems s (s.sreg raddr).toNat (s.sreg rn).toNat → ss = syndromes s.field w (s.sreg rp).toNat →
    ((∀ v ∈ ss, v = 0) → exec (.rsdec rd raddr rn rp) s =
      .next (retire ((((s.setSynz true).setDstat .noErrors).setDnfix 0).setS rd 1))) ∧
    ((∃ v ∈ ss, v ≠ 0) → euclid s.field (s.sreg rp).toNat (syndromePoly ss) = none →
      exec (.rsdec rd raddr rn rp) s =
        .next (retire ((((s.setSynz false).setDstat .uncorrectable).setDnfix 0).setS rd 0))) ∧
    (∀ sigma omega, (∃ v ∈ ss, v ≠ 0) → euclid s.field (s.sreg rp).toNat (syndromePoly ss) = some (sigma, omega) →
      exec (.rsdec rd raddr rn rp) s = .next (retire (((((s.setSynz false).setMem (Memory.writeBlock s.dmem
        (s.sreg raddr).toNat (elemHalves (fixWord s.field omega (pzeros s.field sigma) w).1))).setDstat .corrected).setDnfix
        (fixWord s.field omega (pzeros s.field sigma) w).2).setS rd 1)))

/-- RBST and BAST complete where the block lies in DMEM (44_rs_decoder.md R275, 45_bitappender.md R299) and store the buffer's words
in order; otherwise they fault with MEM_RANGE. -/
def Obligations.BufferStores : Prop :=
  ∀ (s : State) (rd ra : SReg),
    (s.field.valid = true → blockInRange s (s.sreg ra).toNat s.rbuf.length →
      ∃ m, exec (.rbst rd ra) s = .next (retire ((s.setMem m).setS rd (BitVec.ofNat 32 s.rbuf.length))) ∧
        ∀ i, (h : i < s.rbuf.length) → Memory.read m ((s.sreg ra).toNat + i) = (s.rbuf[i]).setWidth 16) ∧
    (s.field.valid = true → ¬ blockInRange s (s.sreg ra).toNat s.rbuf.length →
      exec (.rbst rd ra) s = .next (takeFault (encode (.rbst rd ra)) .memRange s)) ∧
    (blockInRange s (s.sreg ra).toNat s.stream.words.length →
      ∃ m, exec (.bast rd ra) s = .next (retire ((s.setMem m).setS rd (BitVec.ofNat 32 s.stream.words.length))) ∧
        ∀ i, (h : i < s.stream.words.length) → Memory.read m ((s.sreg ra).toNat + i) = s.stream.words[i]) ∧
    (¬ blockInRange s (s.sreg ra).toNat s.stream.words.length →
      exec (.bast rd ra) s = .next (takeFault (encode (.bast rd ra)) .memRange s))

/-! ### The bit stream -/

/-- BAINIT, BAAPP and BAPAD complete on their operands (45_bitappender.md R291, R293, R296, R297): BAINIT for a width of 2 to 16, BAAPP
for up to 32 bits that fit, BAPAD where no word or one that fits is added; otherwise they fault with the cause of the failing
check. -/
def Obligations.BitStreamCommands : Prop :=
  ∀ (s : State) (rw rv rn : SReg) (sd : Bool),
    (2 ≤ (s.sreg rw).toNat → (s.sreg rw).toNat ≤ 16 →
      ∃ w : BitVec 5, w.toNat = (s.sreg rw).toNat ∧
        exec (.bainit rw sd) s = .next (retire (s.setStream ⟨⟨w, sd, 0, 0, 0, 0⟩, []⟩))) ∧
    ((s.sreg rw).toNat < 2 ∨ 16 < (s.sreg rw).toNat →
      exec (.bainit rw sd) s = .next (takeFault (encode (.bainit rw sd)) .baConfig s)) ∧
    (s.stream.packer.baw = 0 → ∀ i ∈ [Instr.baapp rv rn, .bapad], exec i s = .next (takeFault (encode i) .baConfig s)) ∧
    (s.stream.packer.baw ≠ 0 → 32 < (s.sreg rn).toNat →
      exec (.baapp rv rn) s = .next (takeFault (encode (.baapp rv rn)) .operandRange s)) ∧
    (s.stream.packer.baw ≠ 0 → (s.sreg rn).toNat ≤ 32 →
      ∀ p ws, s.stream.packer.run (msbFirst (s.sreg rn).toNat (s.sreg rv).toNat) = (p, ws) →
        (s.stream.words.length + ws.length ≤ 4096 →
          exec (.baapp rv rn) s = .next (retire (s.setStream ⟨p, s.stream.words ++ ws⟩))) ∧
        (ws ≠ [] → 4096 < s.stream.words.length + ws.length →
          exec (.baapp rv rn) s = .next (takeFault (encode (.baapp rv rn)) .bsOverflow s))) ∧
    (s.stream.packer.baw ≠ 0 → s.stream.packer.bacurlen = 0 → exec .bapad s = .next (retire s)) ∧
    (StreamOk s.stream → s.stream.packer.baw ≠ 0 → s.stream.packer.bacurlen ≠ 0 → s.stream.words.length < 4096 →
      ∃ b, Padded s.stream.packer s.stream.words b ∧ exec .bapad s = .next (retire (s.setStream b))) ∧
    (s.stream.packer.baw ≠ 0 → s.stream.packer.bacurlen ≠ 0 → 4096 ≤ s.stream.words.length →
      exec .bapad s = .next (takeFault (encode .bapad) .bsOverflow s))

/-- What a stream holds, for every width, with stuffing or without, and every sequence of bits (45_bitappender.md R292, R294, R295
(1) and (3)). The completed words fit the width, the partial word is shorter than one, and the bit length is the data bits
plus the stuffed bits. With stuffing disabled nothing is stuffed, and the words and the partial word, read most significant
bit first, are the appended bits. With stuffing enabled the last bit of every completed word whose other bits are all equal
is their complement; without those bits the words and the partial word are the appended bits, and BANSTUFF counts those
bits. Appending in two parts is appending in one (R293). -/
def Obligations.StreamHoldsAppendedBits : Prop :=
  (∀ (w : BitVec 5) (sd : Bool) (bits : List Bool) (p : Packer) (ws : List Half), 2 ≤ w.toNat → w.toNat ≤ 16 →
    (Packer.init w sd).run bits = (p, ws) →
    (∀ v ∈ ws, v.toNat < 2 ^ w.toNat) ∧ p.bacurlen.toNat < w.toNat ∧ p.bacur.toNat < 2 ^ p.bacurlen.toNat ∧
    p.balen = BitVec.ofNat 32 bits.length + p.banstuff ∧
    (sd = true → p.banstuff = 0 ∧
      ws.flatMap (fun v => msbFirst w.toNat v.toNat) ++ msbFirst p.bacurlen.toNat p.bacur.toNat = bits) ∧
    (sd = false → (∀ v ∈ ws, endsStuffed w.toNat v = true → v.getLsbD 0 = !v.getLsbD 1) ∧
      p.banstuff = BitVec.ofNat 32 (ws.filter (endsStuffed w.toNat)).length ∧
      ws.flatMap (unstuffed w.toNat) ++ msbFirst p.bacurlen.toNat p.bacur.toNat = bits)) ∧
  (∀ (p q r : Packer) (bits more : List Bool) (ws us : List Half), p.run bits = (q, ws) → q.run more = (r, us) →
    p.run (bits ++ more) = (r, ws ++ us))

/-! ### The mode encoder -/

/-- MENC completes on an Aztec width, a readable text and an encoding that fits the stream buffer (46_mode_encoder.md R350, R352):
the stream is that of the chosen slot's bits, padded, and the results are written; and MSLOT on a slot number up to 5 (R354); a wrong width faults with MENC_CONFIG, a slot number above 5 with OPERAND_RANGE. -/
def Obligations.ModeEncoderCommands : Prop :=
  ∀ (s : State) (rd ra rn rw : SReg),
    (∀ (w : BitVec 5) (text : List Nat) (bank : Bank) (m : Mode) (sl : Slot) (p : Packer) (ws : List Half),
      (s.sreg rw).toNat ∈ [6, 8, 10, 12] → w.toNat = (s.sreg rw).toNat → (s.sreg rn).toNat ≤ 65535 →
      blockInRange s (s.sreg ra).toNat (s.sreg rn).toNat →
      (∀ v ∈ Memory.readBlock s.dmem (s.sreg ra).toNat (s.sreg rn).toNat, v.toNat < 256) →
      text = (Memory.readBlock s.dmem (s.sreg ra).toNat (s.sreg rn).toNat).map (fun v => v.toNat) →
      bank = finalBank s.cfg.aztec w text → (m, sl) = chosenSlot bank →
      (Packer.init w false).run sl.bits = (p, ws) → ws.length ≤ 4096 → p.bacurlen = 0 ∨ ws.length < 4096 →
      ∃ b, Padded p ws b ∧ exec (.menc rd ra rn rw) s = .next (retire (((s.setStream b).setMenc
          ⟨w, p.balen, BitVec.ofNat 3 m.index, BitVec.ofNat 16 (s.sreg rn).toNat,
            bank.map (fun x => x.map (fun y => BitVec.ofNat 32 y.cost))⟩).setS rd p.balen)) ∧
        b.packer.baw = w ∧ b.packer.basd = false ∧ b.packer.bacurlen = 0 ∧ b.packer.banstuff = p.banstuff) ∧
    ((s.sreg rw).toNat ∉ [6, 8, 10, 12] →
      exec (.menc rd ra rn rw) s = .next (takeFault (encode (.menc rd ra rn rw)) .mencConfig s)) ∧
    (∀ m : Fin 6, (s.sreg rn).toNat = m →
      exec (.mslot rd rn) s = .next (retire (s.setS rd ((s.menc.mslots.get m).getD 0xFFFFFFFF)))) ∧
    (5 < (s.sreg rn).toNat → exec (.mslot rd rn) s = .next (takeFault (encode (.mslot rd rn)) .operandRange s))

/-- The final selection takes a filled slot of least cost, ties to the lowest mode number (46_mode_encoder.md R356), and for every
value of AZTEC_TABLES, every width and every text there is one, slot B filled for every text that is not empty (R348). -/
def Obligations.ChosenSlotIsCheapest : Prop :=
  (∀ (b : Bank) (m : Mode) (sl : Slot), selectSlot b = some (m, sl) →
    bankGet b m = some sl ∧
    ∀ m' sl', bankGet b m' = some sl' → sl.cost ≤ sl'.cost ∧ (sl'.cost = sl.cost → m.index ≤ m'.index)) ∧
  (∀ (T : AztecTables) (w : BitVec 5) (text : List Nat),
    (text ≠ [] → ∃ sl, bankGet (finalBank T w text) .bin = some sl) ∧
    ∃ m sl, selectSlot (finalBank T w text) = some (m, sl) ∧ sl.cost = stuffedCost w sl.bits)

/-- The dynamic program (46_mode_encoder.md R341 to R349), for every value of AZTEC_TABLES, every width and every text: a filled slot
holds an encoding of the text that the edges build, at its stuffed cost; and every edge out of a filled slot is relaxed, so
that the slot it leads to is filled at no higher cost. A pair code has the width of Punct codes (log entry 23). -/
def Obligations.SlotsFollowTheEdges : Prop :=
  ∀ (T : AztecTables) (w : BitVec 5) (t : List Nat) (m : Mode) (sl : Slot), bankGet (finalBank T w t) m = some sl →
    sl.cost = stuffedCost w sl.bits ∧
    (∃ A, IsCurrentMode m sl A ∧ Encoding T t m A sl.bits) ∧
    ∀ A, IsCurrentMode m sl A →
      (∀ b ch c, aztecChar T b ch = some c →
        SlotWithin T w (t ++ [ch]) (.chr b) (sl.bits ++ emitted (aztecLatch T A b) ++ emitted [c])) ∧
      (∀ x ch sh c, aztecShift T A x = some sh → aztecChar T x ch = some c →
        SlotWithin T w (t ++ [ch]) (.chr A) (sl.bits ++ emitted [sh, c])) ∧
      (∀ r ∈ aztecBsFrom T, ∀ ch, SlotWithin T w (t ++ [ch]) .bin
        (sl.bits ++ emitted (aztecLatch T A r) ++ emitted [T.bsCode] ++ runLength 1 ++ msbFirst 8 ch)) ∧
      (∀ r, m = .bin → sl.binRun = some r → ∃ pre data, sl.bits = pre ++ runLength r.run ++ data ∧
        pre.length = r.lenpos ∧ data.length = 8 * r.run ∧
        (r.run < 2078 → ∀ ch, SlotWithin T w (t ++ [ch]) .bin (pre ++ runLength (r.run + 1) ++ data ++ msbFirst 8 ch))) ∧
      (∀ c1 c2 pc, aztecPair T c1 c2 = some pc →
        SlotWithin T w (t ++ [c1, c2]) (.chr .punct)
          (sl.bits ++ emitted (aztecLatch T A .punct) ++ emitted [⟨pc, T.widths.get CharMode.punct.index⟩]) ∧
        ∀ sh, aztecShift T A .punct = some sh →
          SlotWithin T w (t ++ [c1, c2]) (.chr A) (sl.bits ++ emitted [sh, ⟨pc, T.widths.get CharMode.punct.index⟩]))

/-- 46_mode_encoder.md R361. -/
def Obligations.WidthLoopPasses : Prop :=
  ∀ (lookup : Nat → Option Nat) (rd raddr rn rw : SReg) (s : State),
    (∀ c w, lookup c = some w → w ∈ [6, 8, 10, 12]) →
    (∀ t, widthLoop lookup rd raddr rn rw 4 6 s ≠ .outOfPasses t) ∧
    (∀ w t, widthLoop lookup rd raddr rn rw 4 6 s = .settled w t → w ∈ [6, 8, 10, 12]) ∧
    (∀ (passes w w2 : Nat) (t : State), mencPass rd raddr rn rw w s = t → t.faulted = false →
      lookup t.menc.mcost.toNat = some w2 →
      widthLoop lookup rd raddr rn rw (passes + 1) w s =
        (if w < w2 then widthLoop lookup rd raddr rn rw passes w2 t else .settled w t))

/-! ### Frames -/

/-- What a command writes only a scalar register leaves: everything but its destination, CMDCNT and, on a fault, the fault
registers (10_state.md R32, 40_support.md R137). -/
def Obligations.ScalarCommandFrame : Prop :=
  ∀ (i : Instr) (s t : State), isScalarCommand i = true → exec i s = .next t →
    (∀ r, scalarDest i ≠ some r → t.sreg r = s.sreg r) ∧ (∀ q, t.qreg q = s.qreg q) ∧
    t.field = s.field ∧ t.rbuf = s.rbuf ∧ t.synz = s.synz ∧ t.eucfail = s.eucfail ∧ t.dstat = s.dstat ∧
    t.stream = s.stream ∧ t.dnfix = s.dnfix ∧ t.menc = s.menc ∧
    (∀ a, Memory.read t.dmem a = Memory.read s.dmem a) ∧ EndsCommand i s t

/-- What a command that writes polynomial registers leaves (10_state.md R34): every scalar register, every other polynomial
register, all of memory, and every flag but SYNZ of RSSYN and EUCFAIL of RSEUC. -/
def Obligations.PolyCommandFrame : Prop :=
  ∀ (i : Instr) (s t : State), polyDests i ≠ [] → exec i s = .next t →
    (∀ r, t.sreg r = s.sreg r) ∧ (∀ q, q ∉ polyDests i → t.qreg q = s.qreg q) ∧
    t.field = s.field ∧ t.rbuf = s.rbuf ∧ (mnemonicOf i ≠ "RSSYN" → t.synz = s.synz) ∧
    (mnemonicOf i ≠ "RSEUC" → t.eucfail = s.eucfail) ∧ t.dstat = s.dstat ∧
    t.stream = s.stream ∧ t.dnfix = s.dnfix ∧ t.menc = s.menc ∧
    (∀ a, Memory.read t.dmem a = Memory.read s.dmem a) ∧ EndsCommand i s t

/-- What a storing command leaves (20_memory.md R82, R92): every word of memory outside the block its meaning stores to, every
polynomial register, and every register but its destination, DNFIX of RSFIX and RSDEC, and SYNZ and DSTAT of RSDEC. -/
def Obligations.StoreCommandFrame : Prop :=
  ∀ (i : Instr) (s t : State) (a n : Nat), storedBlock i s = some (a, n) → exec i s = .next t →
    (∀ b, b < a ∨ a + n ≤ b → Memory.read t.dmem b = Memory.read s.dmem b) ∧
    (∀ r, scalarDest i ≠ some r → t.sreg r = s.sreg r) ∧ (∀ q, t.qreg q = s.qreg q) ∧
    t.field = s.field ∧ t.rbuf = s.rbuf ∧ t.eucfail = s.eucfail ∧ t.stream = s.stream ∧ t.menc = s.menc ∧
    (mnemonicOf i ≠ "RSDEC" → t.synz = s.synz ∧ t.dstat = s.dstat) ∧
    (mnemonicOf i ≠ "RSDEC" → mnemonicOf i ≠ "RSFIX" → t.dnfix = s.dnfix) ∧ EndsCommand i s t

/-- What the bit-stream commands leave (45_bitappender.md R291 to R297): everything but the bit-stream unit; and no command but
BAINIT, BAAPP, BAPAD and MENC changes that unit (10_state.md R38). -/
def Obligations.StreamCommandFrame : Prop :=
  (∀ (i : Instr) (s t : State), mnemonicOf i ∈ ["BAINIT", "BAAPP", "BAPAD"] → exec i s = .next t →
    (∀ r, t.sreg r = s.sreg r) ∧ (∀ q, t.qreg q = s.qreg q) ∧ t.field = s.field ∧ t.rbuf = s.rbuf ∧ t.synz = s.synz ∧
    t.eucfail = s.eucfail ∧ t.dstat = s.dstat ∧ t.dnfix = s.dnfix ∧ t.menc = s.menc ∧
    (∀ a, Memory.read t.dmem a = Memory.read s.dmem a) ∧ EndsCommand i s t) ∧
  (∀ (i : Instr) (s t : State), mnemonicOf i ∉ ["BAINIT", "BAAPP", "BAPAD", "MENC"] → exec i s = .next t →
    t.stream = s.stream)

/-- What FCFG, PZEROS and MENC leave (41_field.md R155, 42_polynomial.md R199, 46_mode_encoder.md R352): FCFG every scalar register,
memory, the stream and the mode-encoder results; PZEROS everything but the root buffer and its destination; MENC everything but
the stream, the mode-encoder results and its destination. -/
def Obligations.UnitCommandFrame : Prop :=
  ∀ (i : Instr) (s t : State), mnemonicOf i ∈ ["FCFG", "PZEROS", "MENC"] → exec i s = .next t →
    (∀ r, scalarDest i ≠ some r → t.sreg r = s.sreg r) ∧
    (mnemonicOf i ≠ "FCFG" → t.field = s.field ∧ (∀ q, t.qreg q = s.qreg q)) ∧
    (mnemonicOf i = "MENC" → t.rbuf = s.rbuf) ∧ (mnemonicOf i ≠ "MENC" → t.stream = s.stream ∧ t.menc = s.menc) ∧
    t.synz = s.synz ∧ t.eucfail = s.eucfail ∧ t.dstat = s.dstat ∧ t.dnfix = s.dnfix ∧
    (∀ a, Memory.read t.dmem a = Memory.read s.dmem a) ∧ EndsCommand i s t

/-- Which command can change a scalar register (10_state.md R32): one with a destination, that register, which its field `a` names,
and only when it retires. -/
def Obligations.ScalarWriters : Prop :=
  ∀ (i : Instr) (s t : State) (r : SReg), exec i s = .next t → t.sreg r ≠ s.sreg r →
    scalarDest i = some r ∧ field (encode i) 22 4 = r ∧ t.cmdcnt = s.cmdcnt + 1 ∧ t.faulted = s.faulted ∧
    mnemonicOf i ∈ ["LI", "LIH", "MOV", "LDW", "RDCSR", "GADD", "GMUL", "GINV", "GDIV", "GEXP", "GLOG", "PEVAL", "PDEG", "PLEAD",
      "PCONST", "PCOEF", "PST", "PZEROS", "RBST", "RSFIX", "RSDEC", "BAST", "MENC", "MSLOT"]

/-! ### Invariants -/

/-- The reset state meets the invariant. -/
def Obligations.InvariantAtReset : Prop :=
  Inv State.reset

/-- Every step, of the executor or the host, keeps DMEM in canonical form within its addresses (20_memory.md R80 to R82, R85). -/
def Obligations.StepKeepsMemory : Prop :=
  ∀ s t : State, MemOk s → step s = .next t → MemOk t

/-- Every step keeps CAUSE in step with the state FAULTED and the FIFO within its depth, and leaves the parameters
(10_state.md R36, R41, 60_exceptions.md R415, 20_memory.md R86). -/
def Obligations.StepKeepsFaultAndFifo : Prop :=
  ∀ s t : State, FaultOk s → FifoOk s → step s = .next t → FaultOk t ∧ FifoOk t ∧ t.cfg = s.cfg

/-- Every step keeps the field one that FCFG builds, and the root buffer distinct nonzero elements of it
(10_state.md R44 to R46, 44_rs_decoder.md R271). -/
def Obligations.StepKeepsField : Prop :=
  ∀ s t : State, FieldOk s.field → RbufOk s → step s = .next t → FieldOk t.field ∧ RbufOk t

/-- Every step keeps every polynomial register a polynomial in normal form over the field (10_state.md R33). -/
def Obligations.StepKeepsPolynomials : Prop :=
  ∀ s t : State, FieldOk s.field → QregsOk s → step s = .next t → QregsOk t

/-- Every step keeps every polynomial register within POLY_MAXLEN coefficients (10_state.md R33, 44_rs_decoder.md R263). -/
def Obligations.StepKeepsPolynomialLength : Prop :=
  ∀ s t : State, FieldOk s.field → QregsOk s → QregsFit s → step s = .next t → QregsFit t

/-- Every step keeps the bit-stream unit well formed: with stuffing no completed word is all 0 or all 1, and the bit length counts
every bit (10_state.md R47, 45_bitappender.md R295 (2) and (3)); and the mode-encoder results legal (10_state.md R49). -/
def Obligations.StepKeepsStream : Prop :=
  ∀ s t : State, StreamOk s.stream → MencOk s → step s = .next t → StreamOk t.stream ∧ MencOk t

/-- From every state that meets the invariant every step answers a next state, and that state meets it: the core has no stuck
state (70_reset_and_hazards.md R463). -/
def Obligations.EveryStepIsSafe : Prop :=
  ∀ s : State, Inv s → SafeStep s
end

