-- ==== Sys2Proof/Laws/Memory.lean ====
section
/-! SUPPORT. The laws of DMEM: a read after a write, what a write leaves alone, and that every operation keeps the
canonical form and the address bound. -/

namespace Sys2Proof.Machine

/-- Reading the word just written gives the value written. -/
@[simp] theorem Memory.find_write_same (m : Memory) (a : Nat) (v : Half) :
    Memory.find (Memory.write m a v) a = some v := by
  induction m with
  | nil => simp [Memory.write, Memory.find]
  | cons c rest ih =>
    obtain ⟨b, u⟩ := c
    simp only [Memory.write]
    split
    · simp [Memory.find]
    · split
      · simp [Memory.find]
      · rename_i h
        simp [Memory.find, h, ih]

/-- A write leaves what is listed for every other address. -/
theorem Memory.find_write_other (m : Memory) (a b : Nat) (v : Half) (h : b ≠ a) :
    Memory.find (Memory.write m a v) b = Memory.find m b := by
  induction m with
  | nil => simp [Memory.write, Memory.find, h]
  | cons c rest ih =>
    obtain ⟨d, u⟩ := c
    simp only [Memory.write]
    split
    · simp [Memory.find, h]
    · split
      · rename_i e
        subst e
        simp [Memory.find, h]
      · simp [Memory.find, ih]

/-- MemRead after MemWrite at the same address (20_memory.md R81). -/
@[simp] theorem Memory.read_write_same (m : Memory) (a : Nat) (v : Half) :
    Memory.read (Memory.write m a v) a = v := by
  simp [Memory.read]

/-- MemWrite leaves every other word (20_memory.md R81). -/
theorem Memory.read_write_other (m : Memory) (a b : Nat) (v : Half) (h : b ≠ a) :
    Memory.read (Memory.write m a v) b = Memory.read m b := by
  simp [Memory.read, Memory.find_write_other m a b v h]

/-- A block write leaves every word outside the block. -/
theorem Memory.read_writeBlock_outside (m : Memory) (a : Nat) (vs : List Half) (b : Nat)
    (h : b < a ∨ a + vs.length ≤ b) : Memory.read (Memory.writeBlock m a vs) b = Memory.read m b := by
  induction vs generalizing m a with
  | nil => rfl
  | cons v rest ih =>
    simp only [List.length_cons] at h
    rw [Memory.writeBlock, ih _ _ (by omega), Memory.read_write_other _ _ _ _ (by omega)]

/-- A block write puts element i at address a + i (20_memory.md R87). -/
theorem Memory.read_writeBlock_inside (m : Memory) (a : Nat) (vs : List Half) (i : Nat) (h : i < vs.length) :
    Memory.read (Memory.writeBlock m a vs) (a + i) = vs[i] := by
  induction vs generalizing m a i with
  | nil => simp at h
  | cons v rest ih =>
    rw [Memory.writeBlock]
    cases i with
    | zero => simp [Memory.read_writeBlock_outside]
    | succ i =>
      have := ih (Memory.write m a v) (a + 1) i (by simpa using h)
      rwa [Nat.add_assoc, Nat.add_comm 1 i] at this

/-- Element i of a block read is the word at a + i (20_memory.md R87). -/
theorem Memory.readBlock_getElem (m : Memory) (a n i : Nat) (h : i < (Memory.readBlock m a n).length) :
    (Memory.readBlock m a n)[i] = Memory.read m (a + i) := by
  induction n generalizing a i with
  | zero => simp [Memory.readBlock] at h
  | succ n ih =>
    cases i with
    | zero => simp [Memory.readBlock]
    | succ i =>
      simp only [Memory.readBlock, List.getElem_cons_succ]
      rw [ih]
      congr 1
      omega

/-- A block read of n words has n words. -/
@[simp] theorem Memory.length_readBlock (m : Memory) (a n : Nat) : (Memory.readBlock m a n).length = n := by
  induction n generalizing a with
  | zero => rfl
  | succ n ih => simp [Memory.readBlock, ih]

/-! ### The canonical form -/

/-- The canonical form as a statement on neighbours. -/
theorem Memory.wf_cons (a : Nat) (v : Half) (m : Memory) :
    Memory.wf ((a, v) :: m) = true ↔ (∀ c ∈ m.head?, a < c.1) ∧ Memory.wf m = true := by
  cases m with
  | nil => simp [Memory.wf]
  | cons c rest => simp [Memory.wf]

/-- The first address after a write is the smaller of the two. -/
theorem Memory.head_write (m : Memory) (a : Nat) (v : Half) (lo : Nat) (ha : lo < a)
    (hm : ∀ c ∈ m.head?, lo < c.1) : ∀ c ∈ (Memory.write m a v).head?, lo < c.1 := by
  cases m with
  | nil => simpa [Memory.write] using ha
  | cons c rest =>
    obtain ⟨b, u⟩ := c
    simp only [Memory.write]
    split
    · simpa using ha
    · split
      · simpa using ha
      · simpa using hm

/-- MemWrite keeps the canonical form. -/
theorem Memory.wf_write (m : Memory) (a : Nat) (v : Half) (h : Memory.wf m = true) :
    Memory.wf (Memory.write m a v) = true := by
  induction m with
  | nil => rfl
  | cons c rest ih =>
    obtain ⟨b, u⟩ := c
    have hc := (Memory.wf_cons b u rest).1 h
    simp only [Memory.write]
    split
    · rename_i hlt
      rw [Memory.wf_cons]
      exact ⟨by simpa using hlt, h⟩
    · split
      · rename_i e
        subst e
        rw [Memory.wf_cons]
        exact hc
      · rw [Memory.wf_cons]
        exact ⟨Memory.head_write rest a v b (by omega) hc.1, ih hc.2⟩

/-- A block write keeps the canonical form. -/
theorem Memory.wf_writeBlock (m : Memory) (a : Nat) (vs : List Half) (h : Memory.wf m = true) :
    Memory.wf (Memory.writeBlock m a vs) = true := by
  induction vs generalizing m a with
  | nil => exact h
  | cons v rest ih => exact ih _ _ (Memory.wf_write m a v h)

/-- MemWrite below the bound keeps every address below it. -/
theorem Memory.within_write (n : Nat) (m : Memory) (a : Nat) (v : Half) (ha : a < n) (h : Memory.within n m = true) :
    Memory.within n (Memory.write m a v) = true := by
  induction m with
  | nil => simpa [Memory.within, Memory.write] using ha
  | cons c rest ih =>
    obtain ⟨b, u⟩ := c
    simp only [Memory.within, List.all_cons, Bool.and_eq_true, decide_eq_true_eq] at h
    simp only [Memory.write]
    split
    · simpa [Memory.within, ha] using h
    · split
      · simpa [Memory.within, ha] using h.2
      · simp only [Memory.within, List.all_cons, Bool.and_eq_true, decide_eq_true_eq]
        exact ⟨h.1, ih h.2⟩

/-- A block write in range keeps every address below the bound. -/
theorem Memory.within_writeBlock (n : Nat) (m : Memory) (a : Nat) (vs : List Half) (ha : vs = [] ∨ a + vs.length ≤ n)
    (h : Memory.within n m = true) : Memory.within n (Memory.writeBlock m a vs) = true := by
  induction vs generalizing m a with
  | nil => exact h
  | cons v rest ih =>
    simp only [reduceCtorEq, false_or, List.length_cons] at ha
    exact ih _ _ (.inr (by omega)) (Memory.within_write n m a v (by omega) h)

/-- The memory at reset is in canonical form. -/
theorem Memory.wf_reset : Memory.wf State.reset.dmem = true := rfl

end Sys2Proof.Machine
end

