-- ==== Sys2Proof/Laws/State.lean ====
section
/-! SUPPORT. What each update of the state leaves in each field: one lemma per field per update, so that no later proof
unfolds a record update. -/

namespace Sys2Proof.Machine

variable (s : State)

/-! ### setS -/

@[simp] theorem setS_sregs (i : SReg) (v : Word) : (s.setS i v).sregs = s.sregs.set i v := rfl
@[simp] theorem setS_qregs (i : SReg) (v : Word) : (s.setS i v).qregs = s.qregs := rfl
@[simp] theorem setS_fifo (i : SReg) (v : Word) : (s.setS i v).fifo = s.fifo := rfl
@[simp] theorem setS_running (i : SReg) (v : Word) : (s.setS i v).running = s.running := rfl
@[simp] theorem setS_faulted (i : SReg) (v : Word) : (s.setS i v).faulted = s.faulted := rfl
@[simp] theorem setS_cause (i : SReg) (v : Word) : (s.setS i v).cause = s.cause := rfl
@[simp] theorem setS_fcmd (i : SReg) (v : Word) : (s.setS i v).fcmd = s.fcmd := rfl
@[simp] theorem setS_cmdcnt (i : SReg) (v : Word) : (s.setS i v).cmdcnt = s.cmdcnt := rfl
@[simp] theorem setS_field (i : SReg) (v : Word) : (s.setS i v).field = s.field := rfl
@[simp] theorem setS_rbuf (i : SReg) (v : Word) : (s.setS i v).rbuf = s.rbuf := rfl
@[simp] theorem setS_synz (i : SReg) (v : Word) : (s.setS i v).synz = s.synz := rfl
@[simp] theorem setS_eucfail (i : SReg) (v : Word) : (s.setS i v).eucfail = s.eucfail := rfl
@[simp] theorem setS_dstat (i : SReg) (v : Word) : (s.setS i v).dstat = s.dstat := rfl
@[simp] theorem setS_stream (i : SReg) (v : Word) : (s.setS i v).stream = s.stream := rfl
@[simp] theorem setS_dnfix (i : SReg) (v : Word) : (s.setS i v).dnfix = s.dnfix := rfl
@[simp] theorem setS_menc (i : SReg) (v : Word) : (s.setS i v).menc = s.menc := rfl
@[simp] theorem setS_dmem (i : SReg) (v : Word) : (s.setS i v).dmem = s.dmem := rfl
@[simp] theorem setS_cfg (i : SReg) (v : Word) : (s.setS i v).cfg = s.cfg := rfl
@[simp] theorem setS_hostIn (i : SReg) (v : Word) : (s.setS i v).hostIn = s.hostIn := rfl
@[simp] theorem setS_hostOut (i : SReg) (v : Word) : (s.setS i v).hostOut = s.hostOut := rfl
@[simp] theorem setS_freeCount (i : SReg) (v : Word) : (s.setS i v).freeCount = s.freeCount := rfl

/-! ### setQ -/

@[simp] theorem setQ_sregs (i : QReg) (p : Poly) : (s.setQ i p).sregs = s.sregs := rfl
@[simp] theorem setQ_qregs (i : QReg) (p : Poly) : (s.setQ i p).qregs = s.qregs.set i p := rfl
@[simp] theorem setQ_fifo (i : QReg) (p : Poly) : (s.setQ i p).fifo = s.fifo := rfl
@[simp] theorem setQ_running (i : QReg) (p : Poly) : (s.setQ i p).running = s.running := rfl
@[simp] theorem setQ_faulted (i : QReg) (p : Poly) : (s.setQ i p).faulted = s.faulted := rfl
@[simp] theorem setQ_cause (i : QReg) (p : Poly) : (s.setQ i p).cause = s.cause := rfl
@[simp] theorem setQ_fcmd (i : QReg) (p : Poly) : (s.setQ i p).fcmd = s.fcmd := rfl
@[simp] theorem setQ_cmdcnt (i : QReg) (p : Poly) : (s.setQ i p).cmdcnt = s.cmdcnt := rfl
@[simp] theorem setQ_field (i : QReg) (p : Poly) : (s.setQ i p).field = s.field := rfl
@[simp] theorem setQ_rbuf (i : QReg) (p : Poly) : (s.setQ i p).rbuf = s.rbuf := rfl
@[simp] theorem setQ_synz (i : QReg) (p : Poly) : (s.setQ i p).synz = s.synz := rfl
@[simp] theorem setQ_eucfail (i : QReg) (p : Poly) : (s.setQ i p).eucfail = s.eucfail := rfl
@[simp] theorem setQ_dstat (i : QReg) (p : Poly) : (s.setQ i p).dstat = s.dstat := rfl
@[simp] theorem setQ_stream (i : QReg) (p : Poly) : (s.setQ i p).stream = s.stream := rfl
@[simp] theorem setQ_dnfix (i : QReg) (p : Poly) : (s.setQ i p).dnfix = s.dnfix := rfl
@[simp] theorem setQ_menc (i : QReg) (p : Poly) : (s.setQ i p).menc = s.menc := rfl
@[simp] theorem setQ_dmem (i : QReg) (p : Poly) : (s.setQ i p).dmem = s.dmem := rfl
@[simp] theorem setQ_cfg (i : QReg) (p : Poly) : (s.setQ i p).cfg = s.cfg := rfl
@[simp] theorem setQ_hostIn (i : QReg) (p : Poly) : (s.setQ i p).hostIn = s.hostIn := rfl
@[simp] theorem setQ_hostOut (i : QReg) (p : Poly) : (s.setQ i p).hostOut = s.hostOut := rfl
@[simp] theorem setQ_freeCount (i : QReg) (p : Poly) : (s.setQ i p).freeCount = s.freeCount := rfl

/-! ### setMem -/

@[simp] theorem setMem_sregs (m : Memory) : (s.setMem m).sregs = s.sregs := rfl
@[simp] theorem setMem_qregs (m : Memory) : (s.setMem m).qregs = s.qregs := rfl
@[simp] theorem setMem_fifo (m : Memory) : (s.setMem m).fifo = s.fifo := rfl
@[simp] theorem setMem_running (m : Memory) : (s.setMem m).running = s.running := rfl
@[simp] theorem setMem_faulted (m : Memory) : (s.setMem m).faulted = s.faulted := rfl
@[simp] theorem setMem_cause (m : Memory) : (s.setMem m).cause = s.cause := rfl
@[simp] theorem setMem_fcmd (m : Memory) : (s.setMem m).fcmd = s.fcmd := rfl
@[simp] theorem setMem_cmdcnt (m : Memory) : (s.setMem m).cmdcnt = s.cmdcnt := rfl
@[simp] theorem setMem_field (m : Memory) : (s.setMem m).field = s.field := rfl
@[simp] theorem setMem_rbuf (m : Memory) : (s.setMem m).rbuf = s.rbuf := rfl
@[simp] theorem setMem_synz (m : Memory) : (s.setMem m).synz = s.synz := rfl
@[simp] theorem setMem_eucfail (m : Memory) : (s.setMem m).eucfail = s.eucfail := rfl
@[simp] theorem setMem_dstat (m : Memory) : (s.setMem m).dstat = s.dstat := rfl
@[simp] theorem setMem_stream (m : Memory) : (s.setMem m).stream = s.stream := rfl
@[simp] theorem setMem_dnfix (m : Memory) : (s.setMem m).dnfix = s.dnfix := rfl
@[simp] theorem setMem_menc (m : Memory) : (s.setMem m).menc = s.menc := rfl
@[simp] theorem setMem_dmem (m : Memory) : (s.setMem m).dmem = m := rfl
@[simp] theorem setMem_cfg (m : Memory) : (s.setMem m).cfg = s.cfg := rfl
@[simp] theorem setMem_hostIn (m : Memory) : (s.setMem m).hostIn = s.hostIn := rfl
@[simp] theorem setMem_hostOut (m : Memory) : (s.setMem m).hostOut = s.hostOut := rfl
@[simp] theorem setMem_freeCount (m : Memory) : (s.setMem m).freeCount = s.freeCount := rfl

/-! ### setStream -/

@[simp] theorem setStream_sregs (b : BitStream) : (s.setStream b).sregs = s.sregs := rfl
@[simp] theorem setStream_qregs (b : BitStream) : (s.setStream b).qregs = s.qregs := rfl
@[simp] theorem setStream_fifo (b : BitStream) : (s.setStream b).fifo = s.fifo := rfl
@[simp] theorem setStream_running (b : BitStream) : (s.setStream b).running = s.running := rfl
@[simp] theorem setStream_faulted (b : BitStream) : (s.setStream b).faulted = s.faulted := rfl
@[simp] theorem setStream_cause (b : BitStream) : (s.setStream b).cause = s.cause := rfl
@[simp] theorem setStream_fcmd (b : BitStream) : (s.setStream b).fcmd = s.fcmd := rfl
@[simp] theorem setStream_cmdcnt (b : BitStream) : (s.setStream b).cmdcnt = s.cmdcnt := rfl
@[simp] theorem setStream_field (b : BitStream) : (s.setStream b).field = s.field := rfl
@[simp] theorem setStream_rbuf (b : BitStream) : (s.setStream b).rbuf = s.rbuf := rfl
@[simp] theorem setStream_synz (b : BitStream) : (s.setStream b).synz = s.synz := rfl
@[simp] theorem setStream_eucfail (b : BitStream) : (s.setStream b).eucfail = s.eucfail := rfl
@[simp] theorem setStream_dstat (b : BitStream) : (s.setStream b).dstat = s.dstat := rfl
@[simp] theorem setStream_stream (b : BitStream) : (s.setStream b).stream = b := rfl
@[simp] theorem setStream_dnfix (b : BitStream) : (s.setStream b).dnfix = s.dnfix := rfl
@[simp] theorem setStream_menc (b : BitStream) : (s.setStream b).menc = s.menc := rfl
@[simp] theorem setStream_dmem (b : BitStream) : (s.setStream b).dmem = s.dmem := rfl
@[simp] theorem setStream_cfg (b : BitStream) : (s.setStream b).cfg = s.cfg := rfl
@[simp] theorem setStream_hostIn (b : BitStream) : (s.setStream b).hostIn = s.hostIn := rfl
@[simp] theorem setStream_hostOut (b : BitStream) : (s.setStream b).hostOut = s.hostOut := rfl
@[simp] theorem setStream_freeCount (b : BitStream) : (s.setStream b).freeCount = s.freeCount := rfl

/-! ### setRbuf -/

@[simp] theorem setRbuf_sregs (r : List Elem) : (s.setRbuf r).sregs = s.sregs := rfl
@[simp] theorem setRbuf_qregs (r : List Elem) : (s.setRbuf r).qregs = s.qregs := rfl
@[simp] theorem setRbuf_fifo (r : List Elem) : (s.setRbuf r).fifo = s.fifo := rfl
@[simp] theorem setRbuf_running (r : List Elem) : (s.setRbuf r).running = s.running := rfl
@[simp] theorem setRbuf_faulted (r : List Elem) : (s.setRbuf r).faulted = s.faulted := rfl
@[simp] theorem setRbuf_cause (r : List Elem) : (s.setRbuf r).cause = s.cause := rfl
@[simp] theorem setRbuf_fcmd (r : List Elem) : (s.setRbuf r).fcmd = s.fcmd := rfl
@[simp] theorem setRbuf_cmdcnt (r : List Elem) : (s.setRbuf r).cmdcnt = s.cmdcnt := rfl
@[simp] theorem setRbuf_field (r : List Elem) : (s.setRbuf r).field = s.field := rfl
@[simp] theorem setRbuf_rbuf (r : List Elem) : (s.setRbuf r).rbuf = r := rfl
@[simp] theorem setRbuf_synz (r : List Elem) : (s.setRbuf r).synz = s.synz := rfl
@[simp] theorem setRbuf_eucfail (r : List Elem) : (s.setRbuf r).eucfail = s.eucfail := rfl
@[simp] theorem setRbuf_dstat (r : List Elem) : (s.setRbuf r).dstat = s.dstat := rfl
@[simp] theorem setRbuf_stream (r : List Elem) : (s.setRbuf r).stream = s.stream := rfl
@[simp] theorem setRbuf_dnfix (r : List Elem) : (s.setRbuf r).dnfix = s.dnfix := rfl
@[simp] theorem setRbuf_menc (r : List Elem) : (s.setRbuf r).menc = s.menc := rfl
@[simp] theorem setRbuf_dmem (r : List Elem) : (s.setRbuf r).dmem = s.dmem := rfl
@[simp] theorem setRbuf_cfg (r : List Elem) : (s.setRbuf r).cfg = s.cfg := rfl
@[simp] theorem setRbuf_hostIn (r : List Elem) : (s.setRbuf r).hostIn = s.hostIn := rfl
@[simp] theorem setRbuf_hostOut (r : List Elem) : (s.setRbuf r).hostOut = s.hostOut := rfl
@[simp] theorem setRbuf_freeCount (r : List Elem) : (s.setRbuf r).freeCount = s.freeCount := rfl

/-! ### setDnfix -/

@[simp] theorem setDnfix_sregs (n : Nat) : (s.setDnfix n).sregs = s.sregs := rfl
@[simp] theorem setDnfix_qregs (n : Nat) : (s.setDnfix n).qregs = s.qregs := rfl
@[simp] theorem setDnfix_fifo (n : Nat) : (s.setDnfix n).fifo = s.fifo := rfl
@[simp] theorem setDnfix_running (n : Nat) : (s.setDnfix n).running = s.running := rfl
@[simp] theorem setDnfix_faulted (n : Nat) : (s.setDnfix n).faulted = s.faulted := rfl
@[simp] theorem setDnfix_cause (n : Nat) : (s.setDnfix n).cause = s.cause := rfl
@[simp] theorem setDnfix_fcmd (n : Nat) : (s.setDnfix n).fcmd = s.fcmd := rfl
@[simp] theorem setDnfix_cmdcnt (n : Nat) : (s.setDnfix n).cmdcnt = s.cmdcnt := rfl
@[simp] theorem setDnfix_field (n : Nat) : (s.setDnfix n).field = s.field := rfl
@[simp] theorem setDnfix_rbuf (n : Nat) : (s.setDnfix n).rbuf = s.rbuf := rfl
@[simp] theorem setDnfix_synz (n : Nat) : (s.setDnfix n).synz = s.synz := rfl
@[simp] theorem setDnfix_eucfail (n : Nat) : (s.setDnfix n).eucfail = s.eucfail := rfl
@[simp] theorem setDnfix_dstat (n : Nat) : (s.setDnfix n).dstat = s.dstat := rfl
@[simp] theorem setDnfix_stream (n : Nat) : (s.setDnfix n).stream = s.stream := rfl
@[simp] theorem setDnfix_dnfix (n : Nat) : (s.setDnfix n).dnfix = BitVec.ofNat 13 n := rfl
@[simp] theorem setDnfix_menc (n : Nat) : (s.setDnfix n).menc = s.menc := rfl
@[simp] theorem setDnfix_dmem (n : Nat) : (s.setDnfix n).dmem = s.dmem := rfl
@[simp] theorem setDnfix_cfg (n : Nat) : (s.setDnfix n).cfg = s.cfg := rfl
@[simp] theorem setDnfix_hostIn (n : Nat) : (s.setDnfix n).hostIn = s.hostIn := rfl
@[simp] theorem setDnfix_hostOut (n : Nat) : (s.setDnfix n).hostOut = s.hostOut := rfl
@[simp] theorem setDnfix_freeCount (n : Nat) : (s.setDnfix n).freeCount = s.freeCount := rfl

/-! ### setMenc -/

@[simp] theorem setMenc_sregs (r : MencResult) : (s.setMenc r).sregs = s.sregs := rfl
@[simp] theorem setMenc_qregs (r : MencResult) : (s.setMenc r).qregs = s.qregs := rfl
@[simp] theorem setMenc_fifo (r : MencResult) : (s.setMenc r).fifo = s.fifo := rfl
@[simp] theorem setMenc_running (r : MencResult) : (s.setMenc r).running = s.running := rfl
@[simp] theorem setMenc_faulted (r : MencResult) : (s.setMenc r).faulted = s.faulted := rfl
@[simp] theorem setMenc_cause (r : MencResult) : (s.setMenc r).cause = s.cause := rfl
@[simp] theorem setMenc_fcmd (r : MencResult) : (s.setMenc r).fcmd = s.fcmd := rfl
@[simp] theorem setMenc_cmdcnt (r : MencResult) : (s.setMenc r).cmdcnt = s.cmdcnt := rfl
@[simp] theorem setMenc_field (r : MencResult) : (s.setMenc r).field = s.field := rfl
@[simp] theorem setMenc_rbuf (r : MencResult) : (s.setMenc r).rbuf = s.rbuf := rfl
@[simp] theorem setMenc_synz (r : MencResult) : (s.setMenc r).synz = s.synz := rfl
@[simp] theorem setMenc_eucfail (r : MencResult) : (s.setMenc r).eucfail = s.eucfail := rfl
@[simp] theorem setMenc_dstat (r : MencResult) : (s.setMenc r).dstat = s.dstat := rfl
@[simp] theorem setMenc_stream (r : MencResult) : (s.setMenc r).stream = s.stream := rfl
@[simp] theorem setMenc_dnfix (r : MencResult) : (s.setMenc r).dnfix = s.dnfix := rfl
@[simp] theorem setMenc_menc (r : MencResult) : (s.setMenc r).menc = r := rfl
@[simp] theorem setMenc_dmem (r : MencResult) : (s.setMenc r).dmem = s.dmem := rfl
@[simp] theorem setMenc_cfg (r : MencResult) : (s.setMenc r).cfg = s.cfg := rfl
@[simp] theorem setMenc_hostIn (r : MencResult) : (s.setMenc r).hostIn = s.hostIn := rfl
@[simp] theorem setMenc_hostOut (r : MencResult) : (s.setMenc r).hostOut = s.hostOut := rfl
@[simp] theorem setMenc_freeCount (r : MencResult) : (s.setMenc r).freeCount = s.freeCount := rfl

/-! ### setSynz -/

@[simp] theorem setSynz_sregs (b : Bool) : (s.setSynz b).sregs = s.sregs := rfl
@[simp] theorem setSynz_qregs (b : Bool) : (s.setSynz b).qregs = s.qregs := rfl
@[simp] theorem setSynz_fifo (b : Bool) : (s.setSynz b).fifo = s.fifo := rfl
@[simp] theorem setSynz_running (b : Bool) : (s.setSynz b).running = s.running := rfl
@[simp] theorem setSynz_faulted (b : Bool) : (s.setSynz b).faulted = s.faulted := rfl
@[simp] theorem setSynz_cause (b : Bool) : (s.setSynz b).cause = s.cause := rfl
@[simp] theorem setSynz_fcmd (b : Bool) : (s.setSynz b).fcmd = s.fcmd := rfl
@[simp] theorem setSynz_cmdcnt (b : Bool) : (s.setSynz b).cmdcnt = s.cmdcnt := rfl
@[simp] theorem setSynz_field (b : Bool) : (s.setSynz b).field = s.field := rfl
@[simp] theorem setSynz_rbuf (b : Bool) : (s.setSynz b).rbuf = s.rbuf := rfl
@[simp] theorem setSynz_synz (b : Bool) : (s.setSynz b).synz = b := rfl
@[simp] theorem setSynz_eucfail (b : Bool) : (s.setSynz b).eucfail = s.eucfail := rfl
@[simp] theorem setSynz_dstat (b : Bool) : (s.setSynz b).dstat = s.dstat := rfl
@[simp] theorem setSynz_stream (b : Bool) : (s.setSynz b).stream = s.stream := rfl
@[simp] theorem setSynz_dnfix (b : Bool) : (s.setSynz b).dnfix = s.dnfix := rfl
@[simp] theorem setSynz_menc (b : Bool) : (s.setSynz b).menc = s.menc := rfl
@[simp] theorem setSynz_dmem (b : Bool) : (s.setSynz b).dmem = s.dmem := rfl
@[simp] theorem setSynz_cfg (b : Bool) : (s.setSynz b).cfg = s.cfg := rfl
@[simp] theorem setSynz_hostIn (b : Bool) : (s.setSynz b).hostIn = s.hostIn := rfl
@[simp] theorem setSynz_hostOut (b : Bool) : (s.setSynz b).hostOut = s.hostOut := rfl
@[simp] theorem setSynz_freeCount (b : Bool) : (s.setSynz b).freeCount = s.freeCount := rfl

/-! ### setEucfail -/

@[simp] theorem setEucfail_sregs (b : Bool) : (s.setEucfail b).sregs = s.sregs := rfl
@[simp] theorem setEucfail_qregs (b : Bool) : (s.setEucfail b).qregs = s.qregs := rfl
@[simp] theorem setEucfail_fifo (b : Bool) : (s.setEucfail b).fifo = s.fifo := rfl
@[simp] theorem setEucfail_running (b : Bool) : (s.setEucfail b).running = s.running := rfl
@[simp] theorem setEucfail_faulted (b : Bool) : (s.setEucfail b).faulted = s.faulted := rfl
@[simp] theorem setEucfail_cause (b : Bool) : (s.setEucfail b).cause = s.cause := rfl
@[simp] theorem setEucfail_fcmd (b : Bool) : (s.setEucfail b).fcmd = s.fcmd := rfl
@[simp] theorem setEucfail_cmdcnt (b : Bool) : (s.setEucfail b).cmdcnt = s.cmdcnt := rfl
@[simp] theorem setEucfail_field (b : Bool) : (s.setEucfail b).field = s.field := rfl
@[simp] theorem setEucfail_rbuf (b : Bool) : (s.setEucfail b).rbuf = s.rbuf := rfl
@[simp] theorem setEucfail_synz (b : Bool) : (s.setEucfail b).synz = s.synz := rfl
@[simp] theorem setEucfail_eucfail (b : Bool) : (s.setEucfail b).eucfail = b := rfl
@[simp] theorem setEucfail_dstat (b : Bool) : (s.setEucfail b).dstat = s.dstat := rfl
@[simp] theorem setEucfail_stream (b : Bool) : (s.setEucfail b).stream = s.stream := rfl
@[simp] theorem setEucfail_dnfix (b : Bool) : (s.setEucfail b).dnfix = s.dnfix := rfl
@[simp] theorem setEucfail_menc (b : Bool) : (s.setEucfail b).menc = s.menc := rfl
@[simp] theorem setEucfail_dmem (b : Bool) : (s.setEucfail b).dmem = s.dmem := rfl
@[simp] theorem setEucfail_cfg (b : Bool) : (s.setEucfail b).cfg = s.cfg := rfl
@[simp] theorem setEucfail_hostIn (b : Bool) : (s.setEucfail b).hostIn = s.hostIn := rfl
@[simp] theorem setEucfail_hostOut (b : Bool) : (s.setEucfail b).hostOut = s.hostOut := rfl
@[simp] theorem setEucfail_freeCount (b : Bool) : (s.setEucfail b).freeCount = s.freeCount := rfl

/-! ### setDstat -/

@[simp] theorem setDstat_sregs (d : DStat) : (s.setDstat d).sregs = s.sregs := rfl
@[simp] theorem setDstat_qregs (d : DStat) : (s.setDstat d).qregs = s.qregs := rfl
@[simp] theorem setDstat_fifo (d : DStat) : (s.setDstat d).fifo = s.fifo := rfl
@[simp] theorem setDstat_running (d : DStat) : (s.setDstat d).running = s.running := rfl
@[simp] theorem setDstat_faulted (d : DStat) : (s.setDstat d).faulted = s.faulted := rfl
@[simp] theorem setDstat_cause (d : DStat) : (s.setDstat d).cause = s.cause := rfl
@[simp] theorem setDstat_fcmd (d : DStat) : (s.setDstat d).fcmd = s.fcmd := rfl
@[simp] theorem setDstat_cmdcnt (d : DStat) : (s.setDstat d).cmdcnt = s.cmdcnt := rfl
@[simp] theorem setDstat_field (d : DStat) : (s.setDstat d).field = s.field := rfl
@[simp] theorem setDstat_rbuf (d : DStat) : (s.setDstat d).rbuf = s.rbuf := rfl
@[simp] theorem setDstat_synz (d : DStat) : (s.setDstat d).synz = s.synz := rfl
@[simp] theorem setDstat_eucfail (d : DStat) : (s.setDstat d).eucfail = s.eucfail := rfl
@[simp] theorem setDstat_dstat (d : DStat) : (s.setDstat d).dstat = d := rfl
@[simp] theorem setDstat_stream (d : DStat) : (s.setDstat d).stream = s.stream := rfl
@[simp] theorem setDstat_dnfix (d : DStat) : (s.setDstat d).dnfix = s.dnfix := rfl
@[simp] theorem setDstat_menc (d : DStat) : (s.setDstat d).menc = s.menc := rfl
@[simp] theorem setDstat_dmem (d : DStat) : (s.setDstat d).dmem = s.dmem := rfl
@[simp] theorem setDstat_cfg (d : DStat) : (s.setDstat d).cfg = s.cfg := rfl
@[simp] theorem setDstat_hostIn (d : DStat) : (s.setDstat d).hostIn = s.hostIn := rfl
@[simp] theorem setDstat_hostOut (d : DStat) : (s.setDstat d).hostOut = s.hostOut := rfl
@[simp] theorem setDstat_freeCount (d : DStat) : (s.setDstat d).freeCount = s.freeCount := rfl

/-! ### retire -/

@[simp] theorem retire_sregs : (retire s).sregs = s.sregs := rfl
@[simp] theorem retire_qregs : (retire s).qregs = s.qregs := rfl
@[simp] theorem retire_fifo : (retire s).fifo = s.fifo := rfl
@[simp] theorem retire_running : (retire s).running = s.running := rfl
@[simp] theorem retire_faulted : (retire s).faulted = s.faulted := rfl
@[simp] theorem retire_cause : (retire s).cause = s.cause := rfl
@[simp] theorem retire_fcmd : (retire s).fcmd = s.fcmd := rfl
@[simp] theorem retire_cmdcnt : (retire s).cmdcnt = s.cmdcnt + 1 := rfl
@[simp] theorem retire_field : (retire s).field = s.field := rfl
@[simp] theorem retire_rbuf : (retire s).rbuf = s.rbuf := rfl
@[simp] theorem retire_synz : (retire s).synz = s.synz := rfl
@[simp] theorem retire_eucfail : (retire s).eucfail = s.eucfail := rfl
@[simp] theorem retire_dstat : (retire s).dstat = s.dstat := rfl
@[simp] theorem retire_stream : (retire s).stream = s.stream := rfl
@[simp] theorem retire_dnfix : (retire s).dnfix = s.dnfix := rfl
@[simp] theorem retire_menc : (retire s).menc = s.menc := rfl
@[simp] theorem retire_dmem : (retire s).dmem = s.dmem := rfl
@[simp] theorem retire_cfg : (retire s).cfg = s.cfg := rfl
@[simp] theorem retire_hostIn : (retire s).hostIn = s.hostIn := rfl
@[simp] theorem retire_hostOut : (retire s).hostOut = s.hostOut := rfl
@[simp] theorem retire_freeCount : (retire s).freeCount = s.freeCount := rfl

/-! ### takeFault -/

@[simp] theorem takeFault_sregs (w : Word) (c : Cause) : (takeFault w c s).sregs = s.sregs := rfl
@[simp] theorem takeFault_qregs (w : Word) (c : Cause) : (takeFault w c s).qregs = s.qregs := rfl
@[simp] theorem takeFault_fifo (w : Word) (c : Cause) : (takeFault w c s).fifo = s.fifo := rfl
@[simp] theorem takeFault_running (w : Word) (c : Cause) : (takeFault w c s).running = s.running := rfl
@[simp] theorem takeFault_faulted (w : Word) (c : Cause) : (takeFault w c s).faulted = true := rfl
@[simp] theorem takeFault_cause (w : Word) (c : Cause) : (takeFault w c s).cause = causeCode c := rfl
@[simp] theorem takeFault_fcmd (w : Word) (c : Cause) : (takeFault w c s).fcmd = w := rfl
@[simp] theorem takeFault_cmdcnt (w : Word) (c : Cause) : (takeFault w c s).cmdcnt = s.cmdcnt := rfl
@[simp] theorem takeFault_field (w : Word) (c : Cause) : (takeFault w c s).field = s.field := rfl
@[simp] theorem takeFault_rbuf (w : Word) (c : Cause) : (takeFault w c s).rbuf = s.rbuf := rfl
@[simp] theorem takeFault_synz (w : Word) (c : Cause) : (takeFault w c s).synz = s.synz := rfl
@[simp] theorem takeFault_eucfail (w : Word) (c : Cause) : (takeFault w c s).eucfail = s.eucfail := rfl
@[simp] theorem takeFault_dstat (w : Word) (c : Cause) : (takeFault w c s).dstat = s.dstat := rfl
@[simp] theorem takeFault_stream (w : Word) (c : Cause) : (takeFault w c s).stream = s.stream := rfl
@[simp] theorem takeFault_dnfix (w : Word) (c : Cause) : (takeFault w c s).dnfix = s.dnfix := rfl
@[simp] theorem takeFault_menc (w : Word) (c : Cause) : (takeFault w c s).menc = s.menc := rfl
@[simp] theorem takeFault_dmem (w : Word) (c : Cause) : (takeFault w c s).dmem = s.dmem := rfl
@[simp] theorem takeFault_cfg (w : Word) (c : Cause) : (takeFault w c s).cfg = s.cfg := rfl
@[simp] theorem takeFault_hostIn (w : Word) (c : Cause) : (takeFault w c s).hostIn = s.hostIn := rfl
@[simp] theorem takeFault_hostOut (w : Word) (c : Cause) : (takeFault w c s).hostOut = s.hostOut := rfl
@[simp] theorem takeFault_freeCount (w : Word) (c : Cause) : (takeFault w c s).freeCount = s.freeCount := rfl

/-! ### commitField -/

@[simp] theorem commitField_sregs (F : FieldCfg) : (commitField F s).sregs = s.sregs := rfl
@[simp] theorem commitField_qregs (F : FieldCfg) : (commitField F s).qregs = Vector.replicate 8 [0] := rfl
@[simp] theorem commitField_fifo (F : FieldCfg) : (commitField F s).fifo = s.fifo := rfl
@[simp] theorem commitField_running (F : FieldCfg) : (commitField F s).running = s.running := rfl
@[simp] theorem commitField_faulted (F : FieldCfg) : (commitField F s).faulted = s.faulted := rfl
@[simp] theorem commitField_cause (F : FieldCfg) : (commitField F s).cause = s.cause := rfl
@[simp] theorem commitField_fcmd (F : FieldCfg) : (commitField F s).fcmd = s.fcmd := rfl
@[simp] theorem commitField_cmdcnt (F : FieldCfg) : (commitField F s).cmdcnt = s.cmdcnt := rfl
@[simp] theorem commitField_field (F : FieldCfg) : (commitField F s).field = F := rfl
@[simp] theorem commitField_rbuf (F : FieldCfg) : (commitField F s).rbuf = [] := rfl
@[simp] theorem commitField_synz (F : FieldCfg) : (commitField F s).synz = s.synz := rfl
@[simp] theorem commitField_eucfail (F : FieldCfg) : (commitField F s).eucfail = s.eucfail := rfl
@[simp] theorem commitField_dstat (F : FieldCfg) : (commitField F s).dstat = s.dstat := rfl
@[simp] theorem commitField_stream (F : FieldCfg) : (commitField F s).stream = s.stream := rfl
@[simp] theorem commitField_dnfix (F : FieldCfg) : (commitField F s).dnfix = s.dnfix := rfl
@[simp] theorem commitField_menc (F : FieldCfg) : (commitField F s).menc = s.menc := rfl
@[simp] theorem commitField_dmem (F : FieldCfg) : (commitField F s).dmem = s.dmem := rfl
@[simp] theorem commitField_cfg (F : FieldCfg) : (commitField F s).cfg = s.cfg := rfl
@[simp] theorem commitField_hostIn (F : FieldCfg) : (commitField F s).hostIn = s.hostIn := rfl
@[simp] theorem commitField_hostOut (F : FieldCfg) : (commitField F s).hostOut = s.hostOut := rfl
@[simp] theorem commitField_freeCount (F : FieldCfg) : (commitField F s).freeCount = s.freeCount := rfl

/-! ### answerHost -/

@[simp] theorem answerHost_sregs (v : Word) : (answerHost v s).sregs = s.sregs := rfl
@[simp] theorem answerHost_qregs (v : Word) : (answerHost v s).qregs = s.qregs := rfl
@[simp] theorem answerHost_fifo (v : Word) : (answerHost v s).fifo = s.fifo := rfl
@[simp] theorem answerHost_running (v : Word) : (answerHost v s).running = s.running := rfl
@[simp] theorem answerHost_faulted (v : Word) : (answerHost v s).faulted = s.faulted := rfl
@[simp] theorem answerHost_cause (v : Word) : (answerHost v s).cause = s.cause := rfl
@[simp] theorem answerHost_fcmd (v : Word) : (answerHost v s).fcmd = s.fcmd := rfl
@[simp] theorem answerHost_cmdcnt (v : Word) : (answerHost v s).cmdcnt = s.cmdcnt := rfl
@[simp] theorem answerHost_field (v : Word) : (answerHost v s).field = s.field := rfl
@[simp] theorem answerHost_rbuf (v : Word) : (answerHost v s).rbuf = s.rbuf := rfl
@[simp] theorem answerHost_synz (v : Word) : (answerHost v s).synz = s.synz := rfl
@[simp] theorem answerHost_eucfail (v : Word) : (answerHost v s).eucfail = s.eucfail := rfl
@[simp] theorem answerHost_dstat (v : Word) : (answerHost v s).dstat = s.dstat := rfl
@[simp] theorem answerHost_stream (v : Word) : (answerHost v s).stream = s.stream := rfl
@[simp] theorem answerHost_dnfix (v : Word) : (answerHost v s).dnfix = s.dnfix := rfl
@[simp] theorem answerHost_menc (v : Word) : (answerHost v s).menc = s.menc := rfl
@[simp] theorem answerHost_dmem (v : Word) : (answerHost v s).dmem = s.dmem := rfl
@[simp] theorem answerHost_cfg (v : Word) : (answerHost v s).cfg = s.cfg := rfl
@[simp] theorem answerHost_hostIn (v : Word) : (answerHost v s).hostIn = s.hostIn := rfl
@[simp] theorem answerHost_hostOut (v : Word) : (answerHost v s).hostOut = s.hostOut ++ [v] := rfl
@[simp] theorem answerHost_freeCount (v : Word) : (answerHost v s).freeCount = s.freeCount := rfl

/-! ### hostPush -/

@[simp] theorem hostPush_sregs (w : Word) : (hostPush w s).sregs = s.sregs := rfl
@[simp] theorem hostPush_qregs (w : Word) : (hostPush w s).qregs = s.qregs := rfl
@[simp] theorem hostPush_fifo (w : Word) : (hostPush w s).fifo = s.fifo ++ [w] := rfl
@[simp] theorem hostPush_running (w : Word) : (hostPush w s).running = s.running := rfl
@[simp] theorem hostPush_faulted (w : Word) : (hostPush w s).faulted = s.faulted := rfl
@[simp] theorem hostPush_cause (w : Word) : (hostPush w s).cause = s.cause := rfl
@[simp] theorem hostPush_fcmd (w : Word) : (hostPush w s).fcmd = s.fcmd := rfl
@[simp] theorem hostPush_cmdcnt (w : Word) : (hostPush w s).cmdcnt = s.cmdcnt := rfl
@[simp] theorem hostPush_field (w : Word) : (hostPush w s).field = s.field := rfl
@[simp] theorem hostPush_rbuf (w : Word) : (hostPush w s).rbuf = s.rbuf := rfl
@[simp] theorem hostPush_synz (w : Word) : (hostPush w s).synz = s.synz := rfl
@[simp] theorem hostPush_eucfail (w : Word) : (hostPush w s).eucfail = s.eucfail := rfl
@[simp] theorem hostPush_dstat (w : Word) : (hostPush w s).dstat = s.dstat := rfl
@[simp] theorem hostPush_stream (w : Word) : (hostPush w s).stream = s.stream := rfl
@[simp] theorem hostPush_dnfix (w : Word) : (hostPush w s).dnfix = s.dnfix := rfl
@[simp] theorem hostPush_menc (w : Word) : (hostPush w s).menc = s.menc := rfl
@[simp] theorem hostPush_dmem (w : Word) : (hostPush w s).dmem = s.dmem := rfl
@[simp] theorem hostPush_cfg (w : Word) : (hostPush w s).cfg = s.cfg := rfl
@[simp] theorem hostPush_hostIn (w : Word) : (hostPush w s).hostIn = s.hostIn := rfl
@[simp] theorem hostPush_hostOut (w : Word) : (hostPush w s).hostOut = s.hostOut := rfl
@[simp] theorem hostPush_freeCount (w : Word) : (hostPush w s).freeCount = s.freeCount := rfl

/-! ### softReset -/

@[simp] theorem softReset_sregs : (softReset s).sregs = State.reset.sregs := rfl
@[simp] theorem softReset_qregs : (softReset s).qregs = State.reset.qregs := rfl
@[simp] theorem softReset_fifo : (softReset s).fifo = State.reset.fifo := rfl
@[simp] theorem softReset_running : (softReset s).running = State.reset.running := rfl
@[simp] theorem softReset_faulted : (softReset s).faulted = State.reset.faulted := rfl
@[simp] theorem softReset_cause : (softReset s).cause = State.reset.cause := rfl
@[simp] theorem softReset_fcmd : (softReset s).fcmd = State.reset.fcmd := rfl
@[simp] theorem softReset_cmdcnt : (softReset s).cmdcnt = State.reset.cmdcnt := rfl
@[simp] theorem softReset_field : (softReset s).field = State.reset.field := rfl
@[simp] theorem softReset_rbuf : (softReset s).rbuf = State.reset.rbuf := rfl
@[simp] theorem softReset_synz : (softReset s).synz = State.reset.synz := rfl
@[simp] theorem softReset_eucfail : (softReset s).eucfail = State.reset.eucfail := rfl
@[simp] theorem softReset_dstat : (softReset s).dstat = State.reset.dstat := rfl
@[simp] theorem softReset_stream : (softReset s).stream = State.reset.stream := rfl
@[simp] theorem softReset_dnfix : (softReset s).dnfix = State.reset.dnfix := rfl
@[simp] theorem softReset_menc : (softReset s).menc = State.reset.menc := rfl
@[simp] theorem softReset_dmem : (softReset s).dmem = s.dmem := rfl
@[simp] theorem softReset_cfg : (softReset s).cfg = s.cfg := rfl
@[simp] theorem softReset_hostIn : (softReset s).hostIn = s.hostIn := rfl
@[simp] theorem softReset_hostOut : (softReset s).hostOut = s.hostOut := rfl
@[simp] theorem softReset_freeCount : (softReset s).freeCount = s.freeCount := rfl

/-! ### Views -/

@[simp] theorem setElem_eq (i : SReg) (x : Elem) : s.setElem i x = s.setS i (x.setWidth 32) := rfl
@[simp] theorem setCount_eq (i : SReg) (n : Nat) : s.setCount i n = s.setS i (BitVec.ofNat 32 n) := rfl

/-- A written scalar register reads as the value written. -/
@[simp] theorem sreg_setS_same (i : SReg) (v : Word) : (s.setS i v).sreg i = v := by
  simp [State.sreg, State.setS, Vector.get_eq_getElem]

/-- Writing one scalar register leaves the others. -/
theorem sreg_setS_other (i j : SReg) (v : Word) (h : j ≠ i) : (s.setS i v).sreg j = s.sreg j := by
  have : (i : Nat) ≠ j := fun e => h (Fin.ext e.symm)
  simp [State.sreg, State.setS, Vector.get_eq_getElem, this]

/-- A written polynomial register reads as the value written. -/
@[simp] theorem qreg_setQ_same (i : QReg) (p : Poly) : (s.setQ i p).qreg i = p := by
  simp [State.qreg, State.setQ, Vector.get_eq_getElem]

/-- Writing one polynomial register leaves the others. -/
theorem qreg_setQ_other (i j : QReg) (p : Poly) (h : j ≠ i) : (s.setQ i p).qreg j = s.qreg j := by
  have : (i : Nat) ≠ j := fun e => h (Fin.ext e.symm)
  simp [State.qreg, State.setQ, Vector.get_eq_getElem, this]

/-- FCFG's commit leaves every polynomial register `[0]`. -/
@[simp] theorem qreg_commitField (F : FieldCfg) (i : QReg) : (commitField F s).qreg i = [0] := by
  simp [State.qreg, Vector.get_eq_getElem]

/-- Two states with the same scalar registers read the same scalar registers. -/
theorem sreg_congr {s t : State} (h : t.sregs = s.sregs) (i : SReg) : t.sreg i = s.sreg i := by
  simp [State.sreg, h]

/-- Two states with the same polynomial registers read the same polynomial registers. -/
theorem qreg_congr {s t : State} (h : t.qregs = s.qregs) (i : QReg) : t.qreg i = s.qreg i := by
  simp [State.qreg, h]

/-- Clearing a fault (60_exceptions.md R414) changes CAUSE and FAULTED only. -/
theorem clearFault_cases : clearFault s = s ∧ s.faulted = false ∨
    clearFault s = { s with cause := 0, faulted := false } ∧ s.faulted = true := by
  unfold clearFault
  split <;> simp_all

end Sys2Proof.Machine
end

