-- ==== Sys2Proof/Laws/Ops.lean ====
section
/-! SUPPORT. What each shared operation can do: the end of a command, and the operand checks. -/

namespace Sys2Proof.Machine

/-- Everything `finish` can answer: a retired result or the recorded fault. -/
theorem finish_next (i : Instr) (s t : State) (r : Except Cause State) :
    finish i s r = .next t ↔ (∃ u, r = .ok u ∧ t = retire u) ∨ (∃ c, r = .error c ∧ t = takeFault (encode i) c s) := by
  cases r <;> simp [finish, eq_comm]

/-- A command always ends in a next state. -/
theorem finish_isNext (i : Instr) (s : State) (r : Except Cause State) : ∃ t, finish i s r = .next t := by
  cases r <;> simp [finish]

@[simp] theorem finish_ok (i : Instr) (s t : State) : finish i s (.ok t) = .next (retire t) := rfl

@[simp] theorem finish_error (i : Instr) (s : State) (c : Cause) :
    finish i s (.error c) = .next (takeFault (encode i) c s) := rfl

/-- `bind` of the checks, forwards. -/
@[simp] theorem except_ok_bind {α β : Type} (a : α) (f : α → Except Cause β) : ((Except.ok a : Except Cause α) >>= f) = f a := rfl

@[simp] theorem except_error_bind {α β : Type} (c : Cause) (f : α → Except Cause β) :
    ((Except.error c : Except Cause α) >>= f) = .error c := rfl

@[simp] theorem except_pure {α : Type} (a : α) : (pure a : Except Cause α) = .ok a := rfl

/-- `bind` of the checks, backwards: a sequence that succeeds has a first result. -/
theorem bind_ok {α β : Type} (x : Except Cause α) (f : α → Except Cause β) (b : β) (h : (x >>= f) = .ok b) :
    ∃ a, x = .ok a ∧ f a = .ok b := by
  cases x with
  | error c => simp at h
  | ok a => exact ⟨a, rfl, by simpa using h⟩

theorem check_ok (p : Prop) [Decidable p] (c : Cause) : check p c = .ok () ↔ p := by
  unfold check; split <;> simp_all

theorem check_error (p : Prop) [Decidable p] (c d : Cause) : check p c = .error d ↔ ¬ p ∧ d = c := by
  unfold check; split <;> rename_i h <;> constructor <;> intro e <;> simp_all

theorem needField_ok (s : State) (F : FieldCfg) : needField s = .ok F ↔ s.field.valid = true ∧ F = s.field := by
  unfold needField; split <;> rename_i h <;> constructor <;> intro e <;> simp_all

theorem needField_error (s : State) (c : Cause) :
    needField s = .error c ↔ s.field.valid = false ∧ c = .fieldNotConfigured := by
  unfold needField; split <;> rename_i h <;> constructor <;> intro e <;> simp_all

theorem elemOperand_ok (F : FieldCfg) (v : Word) (x : Elem) :
    elemOperand F v = .ok x ↔ v.toNat < F.size.toNat ∧ x = v.setWidth 12 := by
  unfold elemOperand; split <;> rename_i h <;> constructor <;> intro e <;> simp_all

theorem elemOperand_error (F : FieldCfg) (v : Word) (c : Cause) :
    elemOperand F v = .error c ↔ F.size.toNat ≤ v.toNat ∧ c = .operandRange := by
  unfold elemOperand; split <;> rename_i h <;> constructor <;> intro e <;> first | (simp_all; done) | (simp_all; omega)

theorem nonzeroElem_ok (x y : Elem) : nonzeroElem x = .ok y ↔ x ≠ 0 ∧ y = x := by
  unfold nonzeroElem; split <;> rename_i h <;> constructor <;> intro e <;> simp_all

theorem nonzeroElem_error (x : Elem) (c : Cause) : nonzeroElem x = .error c ↔ x = 0 ∧ c = .zeroInverse := by
  unfold nonzeroElem; split <;> rename_i h <;> constructor <;> intro e <;> simp_all

theorem parityOperand_ok (F : FieldCfg) (v : Word) (P : Nat) :
    parityOperand F v = .ok P ↔ v.toNat ≤ F.order ∧ P = v.toNat := by
  unfold parityOperand; split
  · simp only [reduceCtorEq, false_iff, not_and]; omega
  · simp only [Except.ok.injEq, eq_comm]; omega

theorem parityOperand_error (F : FieldCfg) (v : Word) (c : Cause) :
    parityOperand F v = .error c ↔ F.order < v.toNat ∧ c = .operandRange := by
  unfold parityOperand; split <;> rename_i h <;> constructor <;> intro e <;> simp_all

theorem addrOperand_ok (s : State) (v : Word) (a : Nat) :
    addrOperand s v = .ok a ↔ v.toNat < s.cfg.dmemWords ∧ a = v.toNat := by
  unfold addrOperand; split <;> rename_i h <;> constructor <;> intro e <;> simp_all

theorem addrOperand_error (s : State) (v : Word) (c : Cause) :
    addrOperand s v = .error c ↔ s.cfg.dmemWords ≤ v.toNat ∧ c = .memRange := by
  unfold addrOperand; split <;> rename_i h <;> constructor <;> intro e <;> first | (simp_all; done) | (simp_all; omega)

theorem checkBlock_ok (s : State) (a n : Nat) : checkBlock s a n = .ok () ↔ blockInRange s a n := by
  unfold checkBlock blockInRange; split <;> simp_all

theorem checkBlock_error (s : State) (a n : Nat) (c : Cause) :
    checkBlock s a n = .error c ↔ ¬ blockInRange s a n ∧ c = .memRange := by
  unfold checkBlock blockInRange; split <;> simp_all [eq_comm]

theorem elemWords_ok (F : FieldCfg) (ws : List Half) (xs : List Elem) :
    elemWords F ws = .ok xs ↔ (∀ v ∈ ws, v.toNat < F.size.toNat) ∧ xs = ws.map (fun v => v.setWidth 12) := by
  unfold elemWords
  split
  · rename_i h
    simp only [List.all_eq_true, decide_eq_true_eq] at h
    simp only [Except.ok.injEq, eq_comm, and_iff_right h]
  · rename_i h
    simp only [List.all_eq_true, decide_eq_true_eq] at h
    simp [h]

theorem elemWords_error (F : FieldCfg) (ws : List Half) (c : Cause) :
    elemWords F ws = .error c ↔ (∃ v ∈ ws, F.size.toNat ≤ v.toNat) ∧ c = .operandRange := by
  unfold elemWords
  split
  · rename_i h
    simp only [List.all_eq_true, decide_eq_true_eq] at h
    constructor
    · intro e; cases e
    · rintro ⟨⟨v, hv, hle⟩, -⟩
      exact absurd (h v hv) (by omega)
  · rename_i h
    simp only [List.all_eq_true, decide_eq_true_eq, not_forall, Nat.not_lt] at h
    obtain ⟨v, hv, hle⟩ := h
    constructor
    · intro e; cases e; exact ⟨⟨v, hv, hle⟩, rfl⟩
    · rintro ⟨-, rfl⟩; rfl

theorem textWords_ok (ws : List Half) (ts : List Nat) :
    textWords ws = .ok ts ↔ (∀ v ∈ ws, v.toNat < 256) ∧ ts = ws.map (fun v => v.toNat) := by
  unfold textWords
  split
  · rename_i h
    simp only [List.all_eq_true, decide_eq_true_eq] at h
    simp only [Except.ok.injEq, eq_comm, and_iff_right h]
  · rename_i h
    simp only [List.all_eq_true, decide_eq_true_eq] at h
    simp [h]

/-- A block of field elements has as many elements as words. -/
theorem elemBlock_length (F : FieldCfg) (s : State) (a n : Nat) (xs : List Elem) (h : elemBlock F s a n = .ok xs) :
    xs.length = n ∧ ∀ x ∈ xs, x.toNat < F.size.toNat := by
  obtain ⟨hw, rfl⟩ := (elemWords_ok F _ xs).1 h
  refine ⟨by simp, fun x hx => ?_⟩
  obtain ⟨v, hv, rfl⟩ := List.mem_map.1 hx
  exact Nat.lt_of_le_of_lt (by simp [BitVec.toNat_setWidth]; exact Nat.mod_le _ _) (hw v hv)

@[simp] theorem elemHalves_length (xs : List Elem) : (elemHalves xs).length = xs.length := by
  simp [elemHalves]

end Sys2Proof.Machine
end

