-- ==== Sys2Proof/Laws/Packer.lean ====
section
/-! SUPPORT. What the bit primitives can do. -/

namespace Sys2Proof.Machine

/-- PUSH either completes a word or adds to the partial one (45_bitappender.md R292). -/
theorem push_cases (p : Packer) (y : Bool) :
    (p.bacurlen + 1 = p.baw ∧
      p.push y = ({ p with bacur := 0, bacurlen := 0, balen := p.balen + 1 }, [(p.bacur <<< 1) ||| bitHalf y])) ∨
    (p.bacurlen + 1 ≠ p.baw ∧
      p.push y = ({ p with bacur := (p.bacur <<< 1) ||| bitHalf y, bacurlen := p.bacurlen + 1, balen := p.balen + 1 },
        [])) := by
  by_cases h : p.bacurlen + 1 = p.baw
  · exact .inl ⟨h, by simp only [Packer.push, if_pos h]⟩
  · exact .inr ⟨h, by simp only [Packer.push, if_neg h]⟩

@[simp] theorem push_baw (p : Packer) (y : Bool) : (p.push y).1.baw = p.baw := by
  obtain ⟨_, h⟩ | ⟨_, h⟩ := push_cases p y <;> simp [h]

@[simp] theorem push_basd (p : Packer) (y : Bool) : (p.push y).1.basd = p.basd := by
  obtain ⟨_, h⟩ | ⟨_, h⟩ := push_cases p y <;> simp [h]

@[simp] theorem push_balen (p : Packer) (y : Bool) : (p.push y).1.balen = p.balen + 1 := by
  obtain ⟨_, h⟩ | ⟨_, h⟩ := push_cases p y <;> simp [h]

@[simp] theorem push_banstuff (p : Packer) (y : Bool) : (p.push y).1.banstuff = p.banstuff := by
  obtain ⟨_, h⟩ | ⟨_, h⟩ := push_cases p y <;> simp [h]

@[simp] theorem run_nil (p : Packer) : p.run [] = (p, []) := rfl

theorem run_cons (p : Packer) (x : Bool) (rest : List Bool) :
    p.run (x :: rest) = (((p.bit x).1.run rest).1, (p.bit x).2 ++ ((p.bit x).1.run rest).2) := rfl

/-- Feeding two sequences in turn is feeding their concatenation. -/
theorem run_append (p : Packer) (xs ys : List Bool) :
    p.run (xs ++ ys) = (((p.run xs).1.run ys).1, (p.run xs).2 ++ ((p.run xs).1.run ys).2) := by
  induction xs generalizing p with
  | nil => simp
  | cons x xs ih => simp [run_cons, ih, List.append_assoc]

/-- Storing completed words succeeds exactly where BS has room for them (45_bitappender.md R292). -/
theorem store_ok (b c : BitStream) (p : Packer) (ws : List Half) :
    b.store p ws = .ok c ↔
      (ws = [] ∨ b.words.length + ws.length ≤ Config.bsWords) ∧ c = ⟨p, b.words ++ ws⟩ := by
  unfold BitStream.store
  split <;> rename_i h
  · simp only [Except.ok.injEq, eq_comm, and_iff_right h]
  · simp only [reduceCtorEq, false_iff]; exact fun e => h e.1

theorem store_error (b : BitStream) (p : Packer) (ws : List Half) (c : Cause) (h : b.store p ws = .error c) :
    c = .bsOverflow := by
  unfold BitStream.store at h
  split at h <;> simp_all

@[simp] theorem length_natBits (n v : Nat) : (natBits n v).length = n := by
  induction n with
  | zero => rfl
  | succ n ih => simp [natBits, ih]

end Sys2Proof.Machine
end

