-- ==== Sys2Proof/Laws/PerInstr.lean ====
section
/-! SUPPORT. Statements made per command. -/

namespace Sys2Proof.Laws.OpcodeField

/-- The opcode of a command (30_encoding.md R110), written out from the table. -/
def opcode : Instr → Nat
  | .nop => 0x00
  | .li _ _ => 0x01
  | .lih _ _ => 0x02
  | .mov _ _ => 0x03
  | .ldw _ _ => 0x04
  | .stw _ _ => 0x05
  | .rdcsr _ _ => 0x06
  | .fcfg _ _ _ => 0x10
  | .gadd _ _ _ => 0x11
  | .gmul _ _ _ => 0x12
  | .ginv _ _ => 0x13
  | .gdiv _ _ _ => 0x14
  | .gexp _ _ => 0x15
  | .glog _ _ => 0x16
  | .pzero _ => 0x20
  | .pone _ => 0x21
  | .pmono _ _ _ => 0x22
  | .padd _ _ => 0x23
  | .pmul _ _ _ => 0x24
  | .pscal _ _ => 0x25
  | .pshift _ _ => 0x26
  | .peval _ _ _ => 0x27
  | .pdeg _ _ => 0x28
  | .plead _ _ => 0x29
  | .pconst _ _ => 0x2A
  | .pcoef _ _ _ => 0x2B
  | .pcopy _ _ => 0x2C
  | .pld _ _ _ => 0x2D
  | .pst _ _ _ => 0x2E
  | .pzeros _ _ => 0x2F
  | .rsgen _ _ => 0x30
  | .rsenc _ _ _ _ => 0x31
  | .rssyn _ _ _ _ => 0x32
  | .rseuc _ _ _ _ => 0x33
  | .rsfix _ _ _ _ => 0x34
  | .rsdec _ _ _ _ => 0x35
  | .rbst _ _ => 0x36
  | .bainit _ _ => 0x38
  | .baapp _ _ => 0x39
  | .bapad => 0x3A
  | .bast _ _ => 0x3B
  | .menc _ _ _ _ => 0x3C
  | .mslot _ _ => 0x3D

/-- Bits 31:26 of a command's word hold its opcode (30_encoding.md R101, R102, R110). -/
def Statement (i : Instr) : Prop :=
  field (encode i) 26 6 = opcode i

/-- The opcode field of a format R word. -/
theorem field_packR (op a b c d imm : Nat) (ho : op < 64) (ha : a < 16) (hb : b < 16) (hc : c < 16) (hd : d < 16)
    (hi : imm < 1024) : field (packR op a b c d imm) 26 6 = op := by
  simp only [field, packR, BitVec.toNat_ofNat]
  omega

/-- The opcode field of a format I word. -/
theorem field_packI (op a imm : Nat) (ho : op < 64) (ha : a < 16) (hi : imm < 65536) :
    field (packI op a imm) 26 6 = op := by
  simp only [field, packI, BitVec.toNat_ofNat]
  omega

theorem nop : Statement .nop :=
  field_packR _ _ _ _ _ _ (by decide) (by omega) (by omega) (by omega) (by omega) (by decide)

theorem li (rd : SReg) (imm16 : BitVec 16) : Statement (.li rd imm16) :=
  field_packI _ _ _ (by decide) (by omega) (by have := imm16.isLt; omega)

theorem lih (rd : SReg) (imm16 : BitVec 16) : Statement (.lih rd imm16) :=
  field_packI _ _ _ (by decide) (by omega) (by have := imm16.isLt; omega)

theorem mov (rd rs : SReg) : Statement (.mov rd rs) :=
  field_packR _ _ _ _ _ _ (by decide) (by omega) (by omega) (by omega) (by omega) (by decide)

theorem ldw (rd ra : SReg) : Statement (.ldw rd ra) :=
  field_packR _ _ _ _ _ _ (by decide) (by omega) (by omega) (by omega) (by omega) (by decide)

theorem stw (rv ra : SReg) : Statement (.stw rv ra) :=
  field_packR _ _ _ _ _ _ (by decide) (by omega) (by omega) (by omega) (by omega) (by decide)

theorem rdcsr (rd : SReg) (csr : BitVec 10) : Statement (.rdcsr rd csr) :=
  field_packR _ _ _ _ _ _ (by decide) (by omega) (by omega) (by omega) (by omega) csr.isLt

theorem fcfg (rsize rgen rbase : SReg) : Statement (.fcfg rsize rgen rbase) :=
  field_packR _ _ _ _ _ _ (by decide) (by omega) (by omega) (by omega) (by omega) (by decide)

theorem gadd (rd rx ry : SReg) : Statement (.gadd rd rx ry) :=
  field_packR _ _ _ _ _ _ (by decide) (by omega) (by omega) (by omega) (by omega) (by decide)

theorem gmul (rd rx ry : SReg) : Statement (.gmul rd rx ry) :=
  field_packR _ _ _ _ _ _ (by decide) (by omega) (by omega) (by omega) (by omega) (by decide)

theorem ginv (rd rx : SReg) : Statement (.ginv rd rx) :=
  field_packR _ _ _ _ _ _ (by decide) (by omega) (by omega) (by omega) (by omega) (by decide)

theorem gdiv (rd rx ry : SReg) : Statement (.gdiv rd rx ry) :=
  field_packR _ _ _ _ _ _ (by decide) (by omega) (by omega) (by omega) (by omega) (by decide)

theorem gexp (rd re : SReg) : Statement (.gexp rd re) :=
  field_packR _ _ _ _ _ _ (by decide) (by omega) (by omega) (by omega) (by omega) (by decide)

theorem glog (rd rx : SReg) : Statement (.glog rd rx) :=
  field_packR _ _ _ _ _ _ (by decide) (by omega) (by omega) (by omega) (by omega) (by decide)

theorem pzero (qd : QReg) : Statement (.pzero qd) :=
  field_packR _ _ _ _ _ _ (by decide) (by omega) (by omega) (by omega) (by omega) (by decide)

theorem pone (qd : QReg) : Statement (.pone qd) :=
  field_packR _ _ _ _ _ _ (by decide) (by omega) (by omega) (by omega) (by omega) (by decide)

theorem pmono (qd : QReg) (rdeg rk : SReg) : Statement (.pmono qd rdeg rk) :=
  field_packR _ _ _ _ _ _ (by decide) (by omega) (by omega) (by omega) (by omega) (by decide)

theorem padd (qd qs : QReg) : Statement (.padd qd qs) :=
  field_packR _ _ _ _ _ _ (by decide) (by omega) (by omega) (by omega) (by omega) (by decide)

theorem pmul (qd qx qy : QReg) : Statement (.pmul qd qx qy) :=
  field_packR _ _ _ _ _ _ (by decide) (by omega) (by omega) (by omega) (by omega) (by decide)

theorem pscal (qd : QReg) (rk : SReg) : Statement (.pscal qd rk) :=
  field_packR _ _ _ _ _ _ (by decide) (by omega) (by omega) (by omega) (by omega) (by decide)

theorem pshift (qd : QReg) (rk : SReg) : Statement (.pshift qd rk) :=
  field_packR _ _ _ _ _ _ (by decide) (by omega) (by omega) (by omega) (by omega) (by decide)

theorem peval (rd : SReg) (q : QReg) (rx : SReg) : Statement (.peval rd q rx) :=
  field_packR _ _ _ _ _ _ (by decide) (by omega) (by omega) (by omega) (by omega) (by decide)

theorem pdeg (rd : SReg) (q : QReg) : Statement (.pdeg rd q) :=
  field_packR _ _ _ _ _ _ (by decide) (by omega) (by omega) (by omega) (by omega) (by decide)

theorem plead (rd : SReg) (q : QReg) : Statement (.plead rd q) :=
  field_packR _ _ _ _ _ _ (by decide) (by omega) (by omega) (by omega) (by omega) (by decide)

theorem pconst (rd : SReg) (q : QReg) : Statement (.pconst rd q) :=
  field_packR _ _ _ _ _ _ (by decide) (by omega) (by omega) (by omega) (by omega) (by decide)

theorem pcoef (rd : SReg) (q : QReg) (rk : SReg) : Statement (.pcoef rd q rk) :=
  field_packR _ _ _ _ _ _ (by decide) (by omega) (by omega) (by omega) (by omega) (by decide)

theorem pcopy (qd qs : QReg) : Statement (.pcopy qd qs) :=
  field_packR _ _ _ _ _ _ (by decide) (by omega) (by omega) (by omega) (by omega) (by decide)

theorem pld (qd : QReg) (raddr rn : SReg) : Statement (.pld qd raddr rn) :=
  field_packR _ _ _ _ _ _ (by decide) (by omega) (by omega) (by omega) (by omega) (by decide)

theorem pst (rd : SReg) (q : QReg) (raddr : SReg) : Statement (.pst rd q raddr) :=
  field_packR _ _ _ _ _ _ (by decide) (by omega) (by omega) (by omega) (by omega) (by decide)

theorem pzeros (rd : SReg) (q : QReg) : Statement (.pzeros rd q) :=
  field_packR _ _ _ _ _ _ (by decide) (by omega) (by omega) (by omega) (by omega) (by decide)

theorem rsgen (qd : QReg) (rp : SReg) : Statement (.rsgen qd rp) :=
  field_packR _ _ _ _ _ _ (by decide) (by omega) (by omega) (by omega) (by omega) (by decide)

theorem rsenc (qg : QReg) (rmsg rl rdst : SReg) : Statement (.rsenc qg rmsg rl rdst) :=
  field_packR _ _ _ _ _ _ (by decide) (by omega) (by omega) (by omega) (by omega) (by decide)

theorem rssyn (qs : QReg) (raddr rn rp : SReg) : Statement (.rssyn qs raddr rn rp) :=
  field_packR _ _ _ _ _ _ (by decide) (by omega) (by omega) (by omega) (by omega) (by decide)

theorem rseuc (qsig qomg qs : QReg) (rp : SReg) : Statement (.rseuc qsig qomg qs rp) :=
  field_packR _ _ _ _ _ _ (by decide) (by omega) (by omega) (by omega) (by omega) (by decide)

theorem rsfix (rd raddr rn : SReg) (qomg : QReg) : Statement (.rsfix rd raddr rn qomg) :=
  field_packR _ _ _ _ _ _ (by decide) (by omega) (by omega) (by omega) (by omega) (by decide)

theorem rsdec (rd raddr rn rp : SReg) : Statement (.rsdec rd raddr rn rp) :=
  field_packR _ _ _ _ _ _ (by decide) (by omega) (by omega) (by omega) (by omega) (by decide)

theorem rbst (rd raddr : SReg) : Statement (.rbst rd raddr) :=
  field_packR _ _ _ _ _ _ (by decide) (by omega) (by omega) (by omega) (by omega) (by decide)

theorem bainit (rw : SReg) (sd : Bool) : Statement (.bainit rw sd) :=
  field_packR _ _ _ _ _ _ (by decide) (by omega) (by omega) (by omega) (by omega) (by cases sd <;> decide)

theorem baapp (rv rn : SReg) : Statement (.baapp rv rn) :=
  field_packR _ _ _ _ _ _ (by decide) (by omega) (by omega) (by omega) (by omega) (by decide)

theorem bapad : Statement .bapad :=
  field_packR _ _ _ _ _ _ (by decide) (by omega) (by omega) (by omega) (by omega) (by decide)

theorem bast (rd raddr : SReg) : Statement (.bast rd raddr) :=
  field_packR _ _ _ _ _ _ (by decide) (by omega) (by omega) (by omega) (by omega) (by decide)

theorem menc (rd raddr rn rw : SReg) : Statement (.menc rd raddr rn rw) :=
  field_packR _ _ _ _ _ _ (by decide) (by omega) (by omega) (by omega) (by omega) (by decide)

theorem mslot (rd rm : SReg) : Statement (.mslot rd rm) :=
  field_packR _ _ _ _ _ _ (by decide) (by omega) (by omega) (by omega) (by omega) (by decide)

end Sys2Proof.Laws.OpcodeField
end

