-- ==== Sys2Proof/Laws/Poly.lean ====
section
/-! SUPPORT. The small lemmas of the polynomial operations: lengths, normal form, where the coefficients come from. -/

namespace Sys2Proof.Machine

@[simp] theorem norm_nil : norm [] = [0] := rfl

@[simp] theorem norm_zero_cons (c : List Elem) : norm (0 :: c) = norm c := by simp [norm]

theorem norm_cons_of_ne (x : Elem) (c : List Elem) (h : x ≠ 0) : norm (x :: c) = x :: c := by
  rw [norm, if_neg h]

/-- A normalised sequence is never empty (42_polynomial.md R182). -/
theorem norm_ne_nil (c : List Elem) : norm c ≠ [] := by
  induction c with
  | nil => simp
  | cons x rest ih =>
    by_cases h : x = 0
    · rw [h, norm_zero_cons]; exact ih
    · rw [norm_cons_of_ne x rest h]; exact List.cons_ne_nil x rest

/-- A normalised sequence has no leading zero but for `[0]` (42_polynomial.md R182). -/
theorem norm_lead (c : List Elem) : (norm c).headD 0 ≠ 0 ∨ norm c = [0] := by
  induction c with
  | nil => exact .inr rfl
  | cons x rest ih =>
    by_cases h : x = 0
    · rw [h, norm_zero_cons]; exact ih
    · rw [norm_cons_of_ne x rest h]; exact .inl h

/-- Normalising makes no sequence longer, but for the empty one. -/
theorem norm_length_le (c : List Elem) : (norm c).length ≤ max 1 c.length := by
  induction c with
  | nil => simp
  | cons x rest ih =>
    by_cases h : x = 0
    · rw [h, norm_zero_cons, List.length_cons]; omega
    · rw [norm_cons_of_ne x rest h]; omega

/-- Every coefficient of a normalised sequence is 0 or one of the sequence. -/
theorem mem_norm (c : List Elem) (x : Elem) (h : x ∈ norm c) : x = 0 ∨ x ∈ c := by
  induction c with
  | nil => left; simpa using h
  | cons y rest ih =>
    by_cases hy : y = 0
    · rw [hy, norm_zero_cons] at h
      exact (ih h).imp id (List.mem_cons_of_mem y)
    · rw [norm_cons_of_ne y rest hy] at h
      exact .inr h

/-- Adding a sequence in at an offset keeps the length. -/
@[simp] theorem length_xorAt (off : Nat) (r q : List Elem) : (xorAt off r q).length = r.length := by
  induction r generalizing off q with
  | nil => cases off <;> rfl
  | cons x r ih => cases off <;> cases q <;> simp [xorAt, ih]

/-- The convolution's running sequence keeps its length. -/
@[simp] theorem length_mulInto (F : FieldCfg) (i : Nat) (p q r : List Elem) :
    (mulInto F i p q r).length = r.length := by
  induction p generalizing i r with
  | nil => rfl
  | cons c p ih => simp [mulInto, ih]

/-- A shift of a nonzero polynomial appends as many zeros (42_polynomial.md R190). -/
theorem pshift_of_ne (p : Poly) (k : Nat) (h : p ≠ [0]) : pshift p k = p ++ List.replicate k 0 := by
  rw [pshift, if_neg h]

@[simp] theorem pshift_zeroPoly (k : Nat) : pshift [0] k = [0] := by simp [pshift]

@[simp] theorem pmono_zero (d : Nat) : pmono d 0 = [0] := by simp [pmono]

theorem pmono_of_ne (d : Nat) (k : Elem) (h : k ≠ 0) : pmono d k = k :: List.replicate d 0 := by
  rw [pmono, if_neg h]

@[simp] theorem peval_nil (F : FieldCfg) (x : Elem) : peval F [] x = 0 := rfl

/-- One more coefficient of Horner's rule (42_polynomial.md R191). -/
theorem peval_concat (F : FieldCfg) (p : List Elem) (c x : Elem) :
    peval F (p ++ [c]) x = gmul F (peval F p x) x ^^^ c := by
  simp [peval]

@[simp] theorem gmul_zero_left (F : FieldCfg) (y : Elem) : gmul F 0 y = 0 := by simp [gmul]

@[simp] theorem gmul_zero_right (F : FieldCfg) (x : Elem) : gmul F x 0 = 0 := by simp [gmul]

theorem gmul_of_ne (F : FieldCfg) (x y : Elem) (hx : x ≠ 0) (hy : y ≠ 0) :
    gmul F x y = expAt F ((logAt F x + logAt F y) % F.order) := by
  rw [gmul, if_neg (by simp only [hx, hy, or_self, not_false_eq_true])]

end Sys2Proof.Machine
end

