-- ==== Sys2Proof/Laws/Step.lean ====
section
/-! SUPPORT. Everything one step can be, and what the placed word does. -/

namespace Sys2Proof.Machine

/-- The state with the free-value counter advanced `k` times. -/
def drawn (k : Nat) (s : State) : State :=
  { s with freeCount := s.freeCount + k }

@[simp] theorem drawn_fifo (k : Nat) (s : State) : (drawn k s).fifo = s.fifo := rfl
@[simp] theorem drawn_running (k : Nat) (s : State) : (drawn k s).running = s.running := rfl
@[simp] theorem drawn_executor (k : Nat) (s : State) : (drawn k s).executor = s.executor := rfl

/-- The executor is BUSY exactly when it is not FAULTED and a command executes or the FIFO holds a word (10_state.md R36). -/
theorem executor_busy_iff (s : State) :
    s.executor = .busy ↔ s.faulted = false ∧ (s.running ≠ none ∨ s.fifo ≠ []) := by
  unfold State.executor
  cases s.faulted <;> cases s.running <;> by_cases h : s.fifo = [] <;> simp [h]

/-- Everything a command step can be while the executor is BUSY: the executing command ends, or the oldest FIFO word's. -/
theorem commandStep_cases (s : State) (hb : s.executor = .busy) :
    (∃ w, s.running = some w ∧ commandStep s = runWord w { s with running := none }) ∨
    (∃ w rest, s.running = none ∧ s.fifo = w :: rest ∧ commandStep s = runWord w { s with fifo := rest }) := by
  obtain ⟨_, hb⟩ := (executor_busy_iff s).1 hb
  cases hr : s.running with
  | some w => exact .inl ⟨w, rfl, by simp [commandStep, hr]⟩
  | none =>
    cases hq : s.fifo with
    | nil => simp [hr, hq] at hb
    | cons w rest => exact .inr ⟨w, rest, rfl, rfl, by simp [commandStep, hr, hq]⟩

/-- What a step is: the core waits, a host operation completes, the executor takes a word, or it ends a command; in all but
the first the free-value counter has advanced at most once before. -/
theorem step_shape (s : State) :
    (hostReady s = none ∧ s.executor ≠ .busy ∧ step s = .next s) ∨
    (∃ op rest k, hostReady s = some (op, rest) ∧ step s = .next (hostStep op rest (drawn k s))) ∨
    (∃ k, s.executor = .busy ∧ s.running = none ∧ step s = .next (takeWord (drawn k s))) ∨
    (∃ k, s.executor = .busy ∧ step s = commandStep (drawn k s)) := by
  unfold step nextStep sharedStep
  by_cases hb : s.executor = .busy
  · rw [if_pos hb]
    split
    · exact .inr (.inr (.inr ⟨0, hb, rfl⟩))
    · split
      · exact .inr (.inl ⟨_, _, 1, ‹_›, rfl⟩)
      · split
        · exact .inr (.inr (.inl ⟨1, hb, (‹_ ∧ _› : _ ∧ _).1, rfl⟩))
        · exact .inr (.inr (.inr ⟨1, hb, rfl⟩))
  · rw [if_neg hb]
    split
    · exact .inl ⟨‹_›, hb, rfl⟩
    · exact .inr (.inl ⟨_, _, 0, ‹_›, rfl⟩)

/-- Everything a step can be, word by word: `step_shape` with what is taken and what is run. -/
theorem step_cases (s : State) :
    (hostReady s = none ∧ s.executor ≠ .busy ∧ step s = .next s) ∨
    (∃ op rest k, hostReady s = some (op, rest) ∧ step s = .next (hostStep op rest (drawn k s))) ∨
    (∃ w rest k, s.executor = .busy ∧ s.running = none ∧ s.fifo = w :: rest ∧
      step s = .next { drawn k s with fifo := rest, running := some w }) ∨
    (∃ w k, s.executor = .busy ∧ s.running = some w ∧ step s = runWord w { drawn k s with running := none }) ∨
    (∃ w rest k, s.executor = .busy ∧ s.running = none ∧ s.fifo = w :: rest ∧
      step s = runWord w { drawn k s with fifo := rest }) := by
  rcases step_shape s with h | h | ⟨k, hb, hr, hs⟩ | ⟨k, hb, hs⟩
  · exact .inl h
  · exact .inr (.inl h)
  · obtain ⟨w, rest, hw⟩ := List.exists_cons_of_ne_nil (((executor_busy_iff s).1 hb).2.resolve_left (by simp [hr]))
    exact .inr (.inr (.inl ⟨w, rest, k, hb, hr, hw, by simp [hs, takeWord, hw]⟩))
  · rcases commandStep_cases (drawn k s) hb with ⟨w, hr, hc⟩ | ⟨w, rest, hr, hq, hc⟩
    · exact .inr (.inr (.inr (.inl ⟨w, k, hb, hr, hs.trans hc⟩)))
    · exact .inr (.inr (.inr (.inr ⟨w, rest, k, hb, hr, hq, hs.trans hc⟩)))

/-- Every command answers a next state. -/
theorem exec_isNext (i : Instr) (s : State) : ∃ t, exec i s = .next t := by
  cases i <;> simp only [exec]
  case fcfg =>
    unfold execFcfg
    split <;> exact finish_isNext _ _ _
  all_goals
    simp only [execNop, execLi, execLih, execMov, execLdw, execStw, execRdcsr, execGadd, execGmul, execGinv, execGdiv,
      execGexp, execGlog, execPzero, execPone, execPmono, execPadd, execPmul, execPscal, execPshift, execPeval,
      execPdeg, execPlead, execPconst, execPcoef, execPcopy, execPld, execPst, execPzeros, execRsgen, execRsenc,
      execRssyn, execRseuc, execRsfix, execRsdec, execRbst, execBainit, execBaapp, execBapad, execBast, execMenc,
      execMslot]
    exact finish_isNext _ _ _

/-- What running a word can be (30_encoding.md R112). -/
theorem runWord_cases (w : Word) (s : State) :
    (∃ i, decode w = .ok i ∧ runWord w s = exec i s) ∨
    (∃ e, decode w = .error e ∧ runWord w s = .next (takeFault w .illegalCommand s)) := by
  unfold runWord
  cases h : decode w with
  | ok i => exact .inl ⟨i, rfl, rfl⟩
  | error e => exact .inr ⟨e, rfl, rfl⟩

/-- With no host operation pending and no command executing, a step runs the oldest FIFO word. -/
theorem step_noHost (s : State) (w : Word) (rest : List Word) (hi : s.hostIn = []) (hf : s.faulted = false)
    (hr : s.running = none) (hq : s.fifo = w :: rest) : step s = runWord w { s with fifo := rest } := by
  have hb : s.executor = .busy := (executor_busy_iff s).2 ⟨hf, by simp [hq]⟩
  simp [step, nextStep, hi, hb, commandStep, hr, hq]

/-- With no host operation pending, a step ends the executing command. -/
theorem step_running (s : State) (w : Word) (hi : s.hostIn = []) (hf : s.faulted = false) (hr : s.running = some w) :
    step s = runWord w { s with running := none } := by
  have hb : s.executor = .busy := (executor_busy_iff s).2 ⟨hf, by simp [hr]⟩
  simp [step, nextStep, hi, hb, commandStep, hr]

@[simp] theorem placeWord_hostIn (s : State) (w : Word) : (placeWord s w).hostIn = [] := rfl

@[simp] theorem placeWord_fifo (s : State) (w : Word) : (placeWord s w).fifo = w :: s.fifo.tail := rfl

@[simp] theorem placeWord_running (s : State) (w : Word) : (placeWord s w).running = none := rfl

@[simp] theorem placeWord_faulted (s : State) (w : Word) : (placeWord s w).faulted = false := by
  simp only [placeWord, clearFault]
  split <;> simp_all

end Sys2Proof.Machine
end

