-- ==== Sys2Proof/Tests/Slice0.lean ====
section
/-! SUPPORT. Tests: ill-formed commands, decoding, one step of each command, and a witness for the hypotheses of each
statement. Expected values come from the spec's examples and vectors (spec/95_test_vectors.md, named L1 to L3) or from its
rules. -/

namespace Sys2Proof.Machine

set_option Elab.async false

/-! ### Small states -/

/-- GF(16) with generator 0x13 and base 1 (L2.2): EXP and LOG by hand from 41_field.md R154. -/
def gf16 : FieldCfg where
  valid := true
  size := 16
  m := 4
  gen := 0x13
  base := 1
  expTab := [1, 2, 4, 8, 3, 6, 12, 11, 5, 10, 7, 14, 15, 13, 9, 1]
  logTab := [0, 1, 4, 2, 8, 5, 10, 3, 14, 9, 7, 6, 13, 11, 12]

/-- The QR field (41_field.md R150). -/
def qrField : FieldCfg := (buildField 0x100 0x11D 1).getD FieldCfg.none

/-- The reset state with values in scalar registers. -/
def inRegs (rs : List (SReg × Word)) : State :=
  rs.foldl (fun s r => s.setS r.1 r.2) State.reset

/-- The reset state with the field GF(16) and values in scalar registers. -/
def in16 (rs : List (SReg × Word)) : State := { inRegs rs with field := gf16 }

/-- The reset state with the QR field and values in scalar registers. -/
def inQr (rs : List (SReg × Word)) : State := { inRegs rs with field := qrField }

/-- Words in DMEM from an address on. -/
def State.withMem (s : State) (a : Nat) (ws : List Half) : State := s.setMem (Memory.writeBlock s.dmem a ws)

/-- DMEM words from an address on. -/
def State.words (s : State) (a n : Nat) : List Half := Memory.readBlock s.dmem a n

/-- The state after one command. -/
def State.after (s : State) (i : Instr) : State := afterCommand i s

/-! ### Well-formedness and decoding -/

/-- 44_rs_decoder.md R255: RSEUC with a = b is refused, by the check and by the decoder (L2.6, 0xCC44C400). -/
theorem test_illformed_rseuc : Instr.wf (.rseuc 1 1 3 1) = false ∧ decode 0xCC44C400 = .error .rseucSameDestination := by
  decide

theorem test_wellformed_rseuc : Instr.wf (.rseuc 2 3 1 5) = true := by decide

/-- 30_encoding.md R112, R113 (L2.1). -/
theorem test_rejects :
    decode 0x00000001 = .error .fixedBits ∧ decode 0x1C000000 = .error .reservedOpcode ∧
    decode 0x48844001 = .error .fixedBits ∧ decode 0x82000000 = .error .fixedBits ∧
    decode 0xFFFFFFFF = .error .reservedOpcode := by decide

/-- Words of 40_support.md and L2.1. -/
theorem test_decode_support :
    decode 0x00000000 = .ok .nop ∧ decode 0x0440FFFF = .ok (.li 1 0xFFFF) ∧ decode 0x0840ABCD = .ok (.lih 1 0xABCD) ∧
    decode 0x0C480000 = .ok (.mov 1 2) ∧ decode 0x10480000 = .ok (.ldw 1 2) ∧ decode 0x14480000 = .ok (.stw 1 2) ∧
    decode 0x19000004 = .ok (.rdcsr 4 4) := by decide

/-- Words of L2.2 and L2.3. -/
theorem test_decode_field :
    decode 0x40048C00 = .ok (.fcfg 1 2 3) ∧ decode 0x44C48000 = .ok (.gadd 3 1 2) ∧ decode 0x48C48000 = .ok (.gmul 3 1 2) ∧
    decode 0x4CC40000 = .ok (.ginv 3 1) ∧ decode 0x50C48000 = .ok (.gdiv 3 1 2) ∧ decode 0x54C40000 = .ok (.gexp 3 1) ∧
    decode 0x58C40000 = .ok (.glog 3 1) := by decide

/-- Words of 42_polynomial.md and L2.4; PLEAD and PCONST by R110 from the fields of PDEG's word. -/
theorem test_decode_polynomial :
    decode 0x80400000 = .ok (.pzero 1) ∧ decode 0x84800000 = .ok (.pone 2) ∧ decode 0x88448000 = .ok (.pmono 1 1 2) ∧
    decode 0x8C480000 = .ok (.padd 1 2) ∧ decode 0x90C48000 = .ok (.pmul 3 1 2) ∧ decode 0x94440000 = .ok (.pscal 1 1) ∧
    decode 0x98440000 = .ok (.pshift 1 1) ∧ decode 0x9C8C4000 = .ok (.peval 2 3 1) ∧ decode 0xA0440000 = .ok (.pdeg 1 1) ∧
    decode 0xA4440000 = .ok (.plead 1 1) ∧ decode 0xA8440000 = .ok (.pconst 1 1) ∧ decode 0xAC448000 = .ok (.pcoef 1 1 2) ∧
    decode 0xB0840000 = .ok (.pcopy 2 1) ∧ decode 0xB4448000 = .ok (.pld 1 1 2) ∧ decode 0xB8C48000 = .ok (.pst 3 1 2) ∧
    decode 0xBC4C0000 = .ok (.pzeros 1 3) := by decide

/-- Words of L2.5 and L2.6. -/
theorem test_decode_reed_solomon :
    decode 0xC0480000 = .ok (.rsgen 1 2) ∧ decode 0xC44D1400 = .ok (.rsenc 1 3 4 5) ∧
    decode 0xC8848C00 = .ok (.rssyn 2 1 2 3) ∧ decode 0xCCD08C00 = .ok (.rseuc 3 4 2 3) ∧
    decode 0xD1849000 = .ok (.rsfix 6 1 2 4) ∧ decode 0xD5048C00 = .ok (.rsdec 4 1 2 3) ∧
    decode 0xDAE80000 = .ok (.rbst 11 10) := by decide

/-- Words of 45_bitappender.md R298, L2.7 and L2.8. -/
theorem test_decode_streams :
    decode 0xE0040000 = .ok (.bainit 1 false) ∧ decode 0xE0040001 = .ok (.bainit 1 true) ∧
    decode 0xE4048000 = .ok (.baapp 1 2) ∧ decode 0xE8000000 = .ok .bapad ∧ decode 0xECC40000 = .ok (.bast 3 1) ∧
    decode 0xF1048C00 = .ok (.menc 4 1 2 3) ∧ decode 0xF5940000 = .ok (.mslot 6 5) := by decide

/-! ### Support commands (L2.1) -/

theorem test_nop : (State.reset.after .nop).cmdcnt = 1 := by decide

theorem test_li : (State.reset.after (.li 1 0xFFFF)).sreg 1 = 0x0000FFFF := by decide

theorem test_lih : ((inRegs [(1, 0x1234)]).after (.lih 1 0xABCD)).sreg 1 = 0xABCD1234 := by decide

theorem test_mov : ((inRegs [(2, 7)]).after (.mov 1 2)).sreg 1 = 7 := by decide

theorem test_ldw_last : (((inRegs [(2, 8191)]).withMem 8191 [0xBEEF]).after (.ldw 1 2)).sreg 1 = 0x0000BEEF := by decide

theorem test_ldw_range : ((inRegs [(2, 8192)]).after (.ldw 1 2)).cause = 0x06 ∧
    ((inRegs [(2, 8192)]).after (.ldw 1 2)).fcmd = 0x10480000 := by decide

theorem test_stw : ((inRegs [(1, 0x00012345), (2, 9)]).after (.stw 1 2)).words 9 1 = [0x2345] := by decide

theorem test_stw_range : ((inRegs [(2, 8192)]).after (.stw 1 2)).cause = 0x06 := by decide

theorem test_rdcsr_cmdcnt : (((State.reset.after .nop).after .nop).after (.rdcsr 1 0x004)).sreg 1 = 2 ∧
    (((State.reset.after .nop).after .nop).after (.rdcsr 1 0x004)).cmdcnt = 3 := by decide

theorem test_rdcsr_unknown : (State.reset.after (.rdcsr 1 0x016)).cause = 0x01 := by decide

/-! ### Field commands (L2.2, L2.3) -/

theorem test_fcfg : ((inRegs [(1, 16), (2, 0x13), (3, 1)]).after (.fcfg 1 2 3)).field = gf16 ∧ gf16.valid = true ∧ gf16.m = 4 := by
  decide

/-- A failed FCFG clears the field. -/
theorem test_fcfg_config_error : ((in16 [(1, 3), (2, 7)]).after (.fcfg 1 2 3)).cause = 0x03 ∧
    ((in16 [(1, 3), (2, 7)]).after (.fcfg 1 2 3)).field.valid = false := by decide

theorem test_gadd : ((inQr [(1, 0x53), (2, 0xCA)]).after (.gadd 3 1 2)).sreg 3 = 0x99 := by decide +kernel

theorem test_gmul : ((inQr [(1, 0x53), (2, 0xCA)]).after (.gmul 3 1 2)).sreg 3 = 0x8F := by decide +kernel

theorem test_gmul_gf16 : ((in16 [(1, 9), (2, 7)]).after (.gmul 3 1 2)).sreg 3 = 0xA := by decide +kernel

theorem test_ginv : ((inQr [(1, 0x53)]).after (.ginv 3 1)).sreg 3 = 0x8C := by decide +kernel

theorem test_ginv_zero : ((in16 []).after (.ginv 3 1)).cause = 0x05 ∧ ((in16 []).after (.ginv 3 1)).fcmd = 0x4CC40000 := by
  decide +kernel

theorem test_gdiv : ((inQr [(1, 0x1D), (2, 2)]).after (.gdiv 3 1 2)).sreg 3 = 0x80 := by decide +kernel

theorem test_gdiv_by_zero : ((in16 [(1, 5)]).after (.gdiv 3 1 2)).cause = 0x05 := by decide +kernel

theorem test_gexp : ((inQr [(1, 300)]).after (.gexp 3 1)).sreg 3 = 0xC1 := by decide +kernel

theorem test_gexp_largest : ((inQr [(1, 0xFFFFFFFF)]).after (.gexp 3 1)).sreg 3 = 1 := by decide +kernel

theorem test_glog : ((inQr [(1, 0x8E)]).after (.glog 3 1)).sreg 3 = 254 := by decide +kernel

theorem test_no_field : (State.reset.after (.gadd 1 2 3)).cause = 0x02 ∧ (State.reset.after (.gadd 1 2 3)).cmdcnt = 0 := by
  decide

/-! ### Polynomial commands (L2.4) -/

theorem test_pzero : (((in16 []).setQ 1 [1, 2]).after (.pzero 1)).qreg 1 = [0] := by decide +kernel

theorem test_pone : ((in16 []).after (.pone 2)).qreg 2 = [1] := by decide +kernel

theorem test_pmono : ((inQr [(1, 3), (2, 5)]).after (.pmono 1 1 2)).qreg 1 = [5, 0, 0, 0] := by decide +kernel

theorem test_pmono_zero : ((inQr [(1, 5000)]).after (.pmono 1 1 2)).qreg 1 = [0] := by decide +kernel

theorem test_padd : ((((in16 []).setQ 1 [1, 2, 3]).setQ 2 [5, 7]).after (.padd 1 2)).qreg 1 = [1, 7, 4] := by decide +kernel

theorem test_padd_self : (((in16 []).setQ 1 [1, 0]).after (.padd 1 1)).qreg 1 = [0] := by decide +kernel

theorem test_pmul : ((((inQr []).setQ 1 [1, 2]).setQ 2 [1, 4]).after (.pmul 3 1 2)).qreg 3 = [1, 6, 8] := by decide +kernel

theorem test_pmul_square : (((inQr []).setQ 1 [1, 2]).after (.pmul 1 1 1)).qreg 1 = [1, 0, 4] := by decide +kernel

theorem test_pscal : (((inQr [(1, 2)]).setQ 1 [1, 2, 3]).after (.pscal 1 1)).qreg 1 = [2, 4, 6] := by decide +kernel

theorem test_pshift : (((inQr [(1, 2)]).setQ 1 [1, 2]).after (.pshift 1 1)).qreg 1 = [1, 2, 0, 0] := by decide +kernel

theorem test_peval : (((inQr [(1, 3)]).setQ 3 [1, 6, 8]).after (.peval 2 3 1)).sreg 2 = 7 := by decide +kernel

theorem test_pdeg : (((inQr []).setQ 1 [1, 7, 4]).after (.pdeg 1 1)).sreg 1 = 2 := by decide +kernel

theorem test_plead : (((inQr []).setQ 1 [1, 7, 4]).after (.plead 1 1)).sreg 1 = 1 := by decide +kernel

theorem test_pconst : (((inQr []).setQ 1 [1, 7, 4]).after (.pconst 1 1)).sreg 1 = 4 := by decide +kernel

theorem test_pcoef : (((inQr [(2, 1)]).setQ 1 [1, 7, 4]).after (.pcoef 1 1 2)).sreg 1 = 7 ∧
    (((inQr [(2, 9)]).setQ 1 [1, 7, 4]).after (.pcoef 1 1 2)).sreg 1 = 0 := by decide +kernel

theorem test_pcopy : (((inQr []).setQ 1 [1, 7, 4]).after (.pcopy 2 1)).qreg 2 = [1, 7, 4] := by decide +kernel

theorem test_pld : (((inQr [(1, 0x40), (2, 3)]).withMem 0x40 [0, 0, 5]).after (.pld 1 1 2)).qreg 1 = [5] := by decide +kernel

theorem test_pld_checks : ((inQr [(2, 4097)]).after (.pld 1 1 2)).cause = 0x07 ∧
    ((inQr [(1, 8190), (2, 3)]).after (.pld 1 1 2)).cause = 0x06 := by decide +kernel

theorem test_pst : (((inQr [(2, 0x50)]).setQ 1 [1, 7, 4]).after (.pst 3 1 2)).words 0x50 3 = [1, 7, 4] ∧
    (((inQr [(2, 0x50)]).setQ 1 [1, 7, 4]).after (.pst 3 1 2)).sreg 3 = 3 := by decide +kernel

/-- The row of [1, 6, 8] = (x + 2)(x + 4), in GF(16), where the product is the same. -/
theorem test_pzeros : (((in16 []).setQ 3 [1, 6, 8]).after (.pzeros 1 3)).rbuf = [2, 4] ∧
    (((in16 []).setQ 3 [1, 6, 8]).after (.pzeros 1 3)).sreg 1 = 2 := by decide +kernel

/-! ### Reed-Solomon commands (L1.8, L2.5, L2.6) -/

theorem test_rsgen : ((inQr [(2, 7)]).after (.rsgen 1 2)).qreg 1 = [1, 0xFE, 0xF5, 0xA4, 0x92, 0x7D, 0xD0, 0x18] := by
  decide +kernel

theorem test_rsgen_none : ((inQr []).after (.rsgen 1 2)).qreg 1 = [1] := by decide +kernel

/-- L1.1. -/
theorem test_rsenc : ((((inQr [(3, 0x100), (4, 5), (5, 0x200)]).withMem 0x100 [0x10, 0x20, 0x11, 0x11, 0x32]).setQ 1
      [1, 0xFE, 0xF5, 0xA4, 0x92, 0x7D, 0xD0, 0x18]).after (.rsenc 1 3 4 5)).words 0x200 12 =
    [0x10, 0x20, 0x11, 0x11, 0x32, 0x00, 0xF8, 0x19, 0x99, 0x63, 0x91, 0xBC] := by decide +kernel

/-- RSENC in place. -/
theorem test_rsenc_in_place : ((((inQr [(1, 0x100), (2, 1)]).withMem 0x100 [1]).setQ 1 [1, 6, 8]).after
    (.rsenc 1 1 2 1)).words 0x100 3 = [1, 6, 8] := by decide +kernel

theorem test_rssyn : (((inQr [(1, 0x200), (2, 2), (3, 3)]).withMem 0x200 [1, 0]).after (.rssyn 2 1 2 3)).qreg 2 = [8, 4, 2] := by
  decide +kernel

theorem test_rssyn_none : ((inQr [(1, 0x200), (3, 4)]).after (.rssyn 2 1 2 3)).synz = true := by decide +kernel

theorem test_rseuc : (((inQr [(3, 7)]).setQ 2 [0xAC, 0x59, 0x1C, 0xAE, 0x96, 0xD7, 0xE6]).after (.rseuc 3 4 2 3)).qreg 3 =
    [0x74, 0x01] ∧
    (((inQr [(3, 7)]).setQ 2 [0xAC, 0x59, 0x1C, 0xAE, 0x96, 0xD7, 0xE6]).after (.rseuc 3 4 2 3)).qreg 4 = [0xE6] := by
  decide +kernel

/-- The normalisation failure leaves the destinations. -/
theorem test_rseuc_fails : ((((inQr [(3, 4)]).setQ 2 [0x93, 0xCB, 0xFB, 0xF7]).setQ 3 [1]).after (.rseuc 3 4 2 3)).eucfail = true ∧
    ((((inQr [(3, 4)]).setQ 2 [0x93, 0xCB, 0xFB, 0xF7]).setQ 3 [1]).after (.rseuc 3 4 2 3)).qreg 3 = [1] := by decide +kernel

/-- The one-error row of L2.6: position 1 of the word gets 0x55. -/
theorem test_rsfix : (((((inQr [(1, 0x200), (2, 12)]).withMem 0x200
      [0x10, 0x75, 0x11, 0x11, 0x32, 0x00, 0xF8, 0x19, 0x99, 0x63, 0x91, 0xBC]).setRbuf [0xE9]).setQ 4 [0xE6]).after
      (.rsfix 6 1 2 4)).words 0x200 3 = [0x10, 0x20, 0x11] := by decide +kernel

/-- A root before the word is skipped (44_rs_decoder.md R273): locator 3 in a word of 2 in GF(16), root alpha^12 = 0xF. -/
theorem test_rsfix_skips : (((((in16 [(1, 0x200), (2, 2)]).withMem 0x200 [5, 6]).setRbuf [0xF]).setQ 4 [1]).after
      (.rsfix 6 1 2 4)).words 0x200 2 = [5, 6] := by decide +kernel

/-- One error in the codeword 0, 0, 0 over GF(16) with P = 2 is corrected (44_rs_decoder.md R284). -/
theorem test_rsdec_corrects : (((in16 [(1, 0x200), (2, 3), (3, 2)]).withMem 0x200 [0, 5, 0]).after (.rsdec 4 1 2 3)).words 0x200 3 =
    [0, 0, 0] ∧ (((in16 [(1, 0x200), (2, 3), (3, 2)]).withMem 0x200 [0, 5, 0]).after (.rsdec 4 1 2 3)).dnfix = 1 := by
  decide +kernel

/-- The random word of L1.8. -/
theorem test_rsdec_uncorrectable : (((inQr [(1, 0x200), (2, 6), (3, 4)]).withMem 0x200
      [0x36, 0x74, 0xCB, 0xA4, 0xFC, 0x33]).after (.rsdec 4 1 2 3)).dstat = .uncorrectable := by decide +kernel

theorem test_rbst : (((inQr [(10, 0x300)]).setRbuf [0xE9, 0x8E]).after (.rbst 11 10)).words 0x300 2 = [0xE9, 0x8E] ∧
    (((inQr [(10, 0x300)]).setRbuf [0xE9, 0x8E]).after (.rbst 11 10)).sreg 11 = 2 := by decide +kernel

/-! ### Bit-stream commands (L1.4, L2.7) -/

theorem test_bainit : ((inRegs [(1, 16)]).after (.bainit 1 true)).stream = ⟨⟨16, true, 0, 0, 0, 0⟩, []⟩ := by decide

theorem test_bainit_width : ((inRegs [(1, 1)]).after (.bainit 1 false)).cause = 0x09 ∧
    ((inRegs [(1, 17)]).after (.bainit 1 false)).cause = 0x09 := by decide

/-- The first append of L1.4. -/
theorem test_baapp : (((inRegs [(1, 6)]).after (.bainit 1 false)).after (.baapp 2 1)).stream =
    ⟨⟨6, false, 7, 0, 1, 1⟩, [0b000001]⟩ := by decide

theorem test_baapp_wide : (((inRegs [(1, 16), (2, 0x12345678), (3, 32)]).after (.bainit 1 true)).after (.baapp 2 3)).stream =
    ⟨⟨16, true, 32, 0, 0, 0⟩, [0x1234, 0x5678]⟩ := by decide

/-- A partial word 11111 is padded to 111110. -/
theorem test_bapad : ({ State.reset with stream := ⟨⟨6, false, 5, 0b11111, 5, 0⟩, []⟩ }.after .bapad).stream =
    ⟨⟨6, false, 6, 0, 0, 0⟩, [0b111110]⟩ := by decide

theorem test_bapad_zeros : ({ State.reset with stream := ⟨⟨6, false, 5, 0, 5, 0⟩, []⟩ }.after .bapad).stream.words =
    [0b000001] := by decide

theorem test_bast : ({ inRegs [(1, 0x400)] with stream := ⟨⟨6, false, 24, 0, 0, 3⟩, [1, 1, 1, 7]⟩ }.after (.bast 3 1)).words
    0x400 4 = [1, 1, 1, 7] ∧
    ({ inRegs [(1, 0x400)] with stream := ⟨⟨6, false, 24, 0, 0, 3⟩, [1, 1, 1, 7]⟩ }.after (.bast 3 1)).sreg 3 = 4 := by decide

/-! ### Mode-encoder commands (L2.8) -/

/-- The text ". " at width 6: the pair, shifted, with one stuffed bit. -/
theorem test_menc : (((inRegs [(1, 0x500), (2, 2), (3, 6)]).withMem 0x500 [0x2E, 0x20]).after (.menc 4 1 2 3)).stream =
      ⟨⟨6, false, 12, 0, 0, 1⟩, [0x01, 0x07]⟩ ∧
    (((inRegs [(1, 0x500), (2, 2), (3, 6)]).withMem 0x500 [0x2E, 0x20]).after (.menc 4 1 2 3)).menc =
      ⟨6, 11, 0, 2, #v[some 11, some 21, some 21, some 15, some 13, some 27]⟩ := by decide +kernel

theorem test_menc_width : ((inRegs [(1, 0x500), (3, 7)]).after (.menc 4 1 2 3)).cause = 0x0A := by decide

theorem test_mslot : ({ inRegs [(5, 5)] with menc := ⟨6, 25, 0, 5, #v[some 25, none, none, none, none, some 38]⟩ }.after
    (.mslot 6 5)).sreg 6 = 38 := by decide

theorem test_mslot_none : (State.reset.after (.mslot 2 1)).sreg 2 = 0xFFFFFFFF ∧
    ((inRegs [(1, 6)]).after (.mslot 2 1)).cause = 0x04 := by decide

/-! ### The step and the host port (L2.9) -/

theorem test_step_runs_fetched : step (State.reset.withFetchWord 32 0x0440FFFF) = exec (.li 1 0xFFFF) State.reset := by rfl

/-- CLRFAULT keeps FCMD and clears CAUSE; SRESET keeps DMEM and clears the rest. -/
theorem test_clrfault : (writeCtrl 1 (State.reset.after (.gadd 1 2 3))).cause = 0 ∧
    (writeCtrl 1 (State.reset.after (.gadd 1 2 3))).fcmd = 0x4448C000 ∧
    (writeCtrl 3 ((State.reset.withMem 9 [5]).after (.gadd 1 2 3))) = State.reset.withMem 9 [5] := by decide

/-- The executor takes the oldest word; its FIFO entry frees. -/
theorem test_take : takeWord { State.reset with fifo := [0x04400100, 0x0480011D] } =
    { State.reset with fifo := [0x0480011D], running := some 0x04400100 } := by decide

/-- With a FIFO of one entry and a command executing a push completes, and a soft reset abandons the command without effect and
discards the word (70_reset_and_hazards.md R452, R458). -/
def executingState : State :=
  { State.reset with
    cfg := { defaultConfig with cmdqDepth := 1 }
    running := some 0x04400100
    hostIn := [.pushCmd 0x0480011D, .writeCtrl 2] }

theorem test_soft_reset_abandons :
    hostReady executingState = some (.pushCmd 0x0480011D, [.writeCtrl 2]) ∧
    hostReady (hostStep (.pushCmd 0x0480011D) [.writeCtrl 2] executingState) = some (.writeCtrl 2, []) ∧
    hostStep (.writeCtrl 2) [] (hostStep (.pushCmd 0x0480011D) [.writeCtrl 2] executingState) =
      { State.reset with cfg := executingState.cfg } := by decide

/-! ### Witnesses: states and operands that meet the hypotheses of the statements, one theorem for each statement that has
hypotheses and one line for each clause, at a boundary where a clause gives a range -/

/-- What `after` gives is the next state of every command: with it every hypothesis `exec i s = .next t` below is met by
`t = s.after i`. -/
theorem exec_after (i : Instr) (s : State) : exec i s = .next (s.after i) := by
  obtain ⟨t, h⟩ := exec_isNext i s
  simp [State.after, afterCommand, h]

/-- The state with host operations pending. -/
def State.host (s : State) (ops : List HostOp) : State := { s with hostIn := ops }

/-- The state with words in the FIFO. -/
def State.queue (s : State) (ws : List Word) : State := { s with fifo := ws }

/-- A property of every member of a list, checked member by member. -/
theorem all_of {α : Type} (l : List α) (P : α → Prop) [DecidablePred P] (h : l.all (fun v => decide (P v)) = true) :
    ∀ v ∈ l, P v := by
  simpa using h

theorem polyOk_of (F : FieldCfg) (p : Poly) (h0 : p ≠ []) (h1 : p.headD 0 ≠ 0 ∨ p = [0])
    (h2 : p.all (fun x => decide (x.toNat < F.size.toNat)) = true) : PolyOk F p :=
  ⟨h0, h1, all_of p (fun x => x.toNat < F.size.toNat) h2⟩

theorem rbufOk_of (s : State) (h1 : s.rbuf.Nodup)
    (h2 : s.rbuf.all (fun x : Elem => decide (x ≠ 0 ∧ x.toNat < s.field.size.toNat)) = true) : RbufOk s :=
  ⟨h1, all_of s.rbuf (fun x => x ≠ 0 ∧ x.toNat < s.field.size.toNat) h2⟩

theorem readable_of (s : State) (a n : Nat) (h1 : n = 0 ∨ a + n ≤ s.cfg.dmemWords)
    (h2 : (Memory.readBlock s.dmem a n).all (fun v => decide (v.toNat < s.field.size.toNat)) = true) : ReadableElems s a n :=
  ⟨h1, all_of _ _ h2⟩

theorem witness_field_gf16 : FieldOk gf16 ∧ gf16.valid = true :=
  ⟨.inr ⟨16, 0x13, 1, by decide⟩, rfl⟩

theorem witness_qregs_gf16 (rs : List (SReg × Word)) : QregsOk (in16 rs) := by
  have h : ∀ rs : List (SReg × Word), ∀ s : State,
      (rs.foldl (fun s r => s.setS r.1 r.2) s).qregs = s.qregs := by
    intro rs
    induction rs with
    | nil => intro s; rfl
    | cons r rest ih => intro s; exact ih _
  have h2 : (in16 rs).qregs = State.reset.qregs := h rs State.reset
  have h3 : ∀ q, (in16 rs).qreg q = [0] := by
    intro q
    unfold State.qreg
    rw [h2]
    revert q
    decide
  refine ⟨fun _ q => ?_, fun _ q => h3 q⟩
  rw [h3 q]
  exact polyOk_of gf16 [0] (by decide) (by decide) (by decide)

theorem witness_DecodeOfEncode : Instr.wf (.rseuc 7 6 5 15) = true ∧ Instr.wf (.li 15 0xFFFF) = true := by decide

theorem witness_EncodeOfDecode : decode 0xE0040001 = .ok (.bainit 1 true) := by decide

theorem witness_DecodeIsOpcodeMap :
    (⟨"RSEUC", 0x33, 0xCC000000, 0xFE2203FF⟩ : OpcodeRow) ∈ opcodeMap ∧
    (0xCC44C400 : Word) &&& 0xFE2203FF = 0xCC000000 ∧ field 0xCC44C400 22 4 = field 0xCC44C400 18 4 ∧
    (0xCC8C5400 : Word) &&& 0xFE2203FF = 0xCC000000 ∧ field 0xCC8C5400 22 4 ≠ field 0xCC8C5400 18 4 ∧
    (∀ op ∈ [0x07, 0x0F, 0x17, 0x1F, 0x37, 0x3E, 0x3F], field (packR op 0 0 0 0 0) 26 6 = op ∧
      decode (packR op 0 0 0 0 0) = .error .reservedOpcode) ∧
    (∀ op ∈ [0x06, 0x10, 0x16, 0x20, 0x36, 0x38, 0x3D], decode (packR op 0 0 0 0 0) ≠ .error .reservedOpcode) := by
  decide

theorem witness_StepRunsDecodedCommand :
    decode 0x04400100 = .ok (.li 1 0x100) ∧ (State.reset.queue [0x04400100]).faulted = false ∧
    (State.reset.queue [0x04400100]).running = none ∧ (State.reset.queue [0x04400100]).hostIn = [] ∧
    ((State.reset.queue [0x04400100]).host [.readDmem 0]).hostIn ≠ [] ∧
    hostReady ((State.reset.queue [0x04400100]).host [.readDmem 0]) = none ∧
    hostReady ((State.reset.queue [0x04400100]).host [.readCsr 0]) = some (.readCsr 0, []) ∧
    executingState.running = some 0x04400100 ∧ executingState.hostIn ≠ [] ∧ (executingState.host []).hostIn = [] := by decide

theorem witness_IllegalWordFaults :
    (State.reset.queue [0x1C000000]).hostIn = [] ∧ (State.reset.queue [0x1C000000]).running = none ∧
    decode 0x1C000000 = .error .reservedOpcode ∧
    { State.reset with running := some (0x00000001 : Word) }.running = some 0x00000001 ∧
    decode 0x00000001 = .error .fixedBits ∧ ((State.reset.queue [0x1C000000]).host [.readDmem 0]).hostIn ≠ [] ∧
    hostReady ((State.reset.queue [0x1C000000]).host [.readDmem 0]) = none ∧
    hostReady ((State.reset.queue [0x1C000000]).host [.readCsr 0]) = some (.readCsr 0, []) := by decide

theorem witness_PlacedWordRunsNext : decodeTableWord 32 0x04400100 = some (.li 1 0x100) := by decide

theorem witness_FaultRecording :
    (State.reset.queue [0x04C00003]).faulted = false ∧
    runWord 0x48844000 (State.reset.queue [0x04C00003]) = .next ((State.reset.queue [0x04C00003]).after (.gmul 2 1 1)) ∧
    ((State.reset.queue [0x04C00003]).after (.gmul 2 1 1)).faulted = true ∧
    hostReady ((State.reset.queue [0x04C00003]).after (.gmul 2 1 1)) = none ∧
    hostReady (((State.reset.queue [0x04C00003]).host [.readDmem 0]).after (.gmul 2 1 1)) = some (.readDmem 0, []) :=
  ⟨rfl, exec_after (.gmul 2 1 1) (State.reset.queue [0x04C00003]), by decide, by decide, by decide⟩

theorem witness_FaultHasNoOtherEffect :
    runWord 0x48844000 State.reset = .next (State.reset.after (.gmul 2 1 1)) ∧
    (State.reset.after (.gmul 2 1 1)).faulted = true ∧ (∀ a b c, decode 0x48844000 ≠ .ok (.fcfg a b c)) ∧
    runWord 0x40048C00 (in16 [(1, 3)]) = .next ((in16 [(1, 3)]).after (.fcfg 1 2 3)) ∧
    ((in16 [(1, 3)]).after (.fcfg 1 2 3)).faulted = true ∧ decode 0x40048C00 = .ok (.fcfg 1 2 3) := by
  refine ⟨exec_after (.gmul 2 1 1) State.reset, by decide, fun a b c h => ?_, exec_after (.fcfg 1 2 3) (in16 [(1, 3)]),
    by decide, by decide⟩
  have h' : decode 0x48844000 = .ok (.gmul 2 1 1) := by decide
  rw [h'] at h
  cases h

theorem witness_CommandCounter :
    State.reset.faulted = false ∧ (State.reset.after .nop).faulted = false ∧ (State.reset.after .bapad).faulted = true ∧
    ({ State.reset with cmdcnt := 0xFFFFFFFF }.after .nop).cmdcnt = 0 ∧
    decode 0x00000001 = .error .fixedBits := by decide

/-- One command with every check passed, one that fails its first check and one that fails its last. -/
theorem witness_CommandChecks : FirstFailing (checksOf (.gdiv 3 1 2) (in16 [(1, 15), (2, 1)])) none ∧
    FirstFailing (checksOf (.gdiv 3 1 2) State.reset) (some .fieldNotConfigured) ∧
    FirstFailing (checksOf (.gdiv 3 1 2) (in16 [(1, 15)])) (some .zeroInverse) := by
  simp only [checksOf, FirstFailing, fieldCheck, elemCheck]
  decide

/-- A state FAULTED by the first of two commands, a write of CTRL the oldest of two pending host operations. -/
def faultedState : State := ((State.reset.queue [0x04C00003]).after (.gmul 2 1 1)).host [.writeCtrl 1, .readCsr 2]

theorem witness_ControlWrites :
    faultedState.hostIn = .writeCtrl 1 :: [.readCsr 2] ∧ faultedState.executor ≠ .busy ∧ faultedState.faulted = true ∧
    FaultOk faultedState ∧ faultedState.fifo = 0x04C00003 :: [] ∧ executingState.executor = .busy :=
  ⟨by decide, by decide, by decide, ⟨fun _ => ⟨by decide, .fieldNotConfigured, by decide⟩, fun h => absurd h (by decide)⟩,
    by decide, by decide⟩

theorem witness_ControlWrites_clauses :
    ((State.reset.queue [0x04C00003]).after (.gmul 2 1 1)).executor ≠ .busy ∧
    ((State.reset.queue [0x04C00003]).after (.gmul 2 1 1)).faulted = true ∧
    (State.reset.after (.gmul 2 1 1)).executor ≠ .busy ∧ (State.reset.after (.gmul 2 1 1)).fifo = [] ∧
    State.reset.executor ≠ .busy ∧ State.reset.faulted = false ∧
    (3 : Word).getLsbD 1 = true ∧ (2 : Word).getLsbD 1 = true ∧
    (1 : Word).getLsbD 1 = false ∧ (1 : Word).getLsbD 0 = true ∧
    (0xFFFFFFFC : Word).getLsbD 1 = false ∧ (0xFFFFFFFC : Word).getLsbD 0 = false := by decide

theorem witness_HostPort :
    faultedState.executor ≠ .busy ∧ hostReady faultedState = some (.writeCtrl 1, [.readCsr 2]) ∧
    executingState.executor = .busy ∧ executingState.fifo = [] ∧
    (State.reset.host [.readCmd]).hostIn = [.readCmd] ∧ neverHeld .readCmd = true ∧
    State.reset.executor ≠ .busy ∧ (State.reset.queue [0]).executor = .busy ∧
    (State.reset.queue (List.replicate 15 0)).fifo.length < State.reset.cfg.cmdqDepth ∧
    ¬ (State.reset.queue (List.replicate 16 0)).fifo.length < State.reset.cfg.cmdqDepth ∧
    8191 < State.reset.cfg.dmemWords ∧ State.reset.cfg.dmemWords ≤ 8192 := by decide

theorem witness_NopAndImmediates :
    field 0x00000001 26 6 = 0x00 ∧ field 0x04410000 26 6 = 0x01 ∧ field 0x04410000 16 6 ≠ 0 ∧
    field 0x08600000 26 6 = 0x02 ∧ field 0x08600000 16 6 ≠ 0 := by decide

theorem witness_MoveLoadStore :
    ((inRegs [(2, 8191)]).sreg 2).toNat < State.reset.cfg.dmemWords ∧
    State.reset.cfg.dmemWords ≤ ((inRegs [(2, 8192)]).sreg 2).toNat := by decide

theorem witness_CsrReads : (0x009, (2 : Word)) ∈ csrTable (State.reset.setRbuf [3, 4]) ∧
    (State.reset.setRbuf [3, 4]).rbuf.length < 2 ^ 13 ∧ (0x00D, (0 : Word)) ∈ csrTable State.reset ∧
    State.reset.stream.words.length < 2 ^ 13 ∧ (0x015, (0 : Word)) ∈ csrTable State.reset ∧
    0x015 < (0x016 : BitVec 10).toNat ∧ 0x015 < (0x3FF : BitVec 10).toNat := by decide

theorem witness_FcfgBuildsField : LegalField 16 0x13 1 ∧ LegalField 16 0x13 14 ∧ LegalField 2 3 0 ∧
    ¬ LegalField 16 0x13 15 ∧ ¬ LegalField 3 7 0 ∧ ¬ LegalField 16 0x1F 1 := by
  have h16 : ∀ i, 1 ≤ i → i ≤ 14 → powerRef 16 0x13 i ≠ 1 := by
    intro i h1 h2
    interval_cases i <;> decide
  have h16' : powerRef 16 0x13 15 = 1 := by decide
  refine ⟨⟨⟨4, by decide⟩, by decide, by decide, by decide, h16, h16'⟩,
    ⟨⟨4, by decide⟩, by decide, by decide, by decide, h16, h16'⟩,
    ⟨⟨1, by decide⟩, by decide, by decide, by decide, fun i h1 h2 => by omega, by decide⟩,
    fun h => absurd h.2.2.2.1 (by decide), ?_, fun h => absurd h.2.2.2.2.2 (by
      intro h'
      exact h.2.2.2.2.1 5 (by decide) (by decide) (by decide))⟩
  rintro ⟨⟨m, h1, h2, h3⟩, -⟩
  interval_cases m <;> omega

theorem witness_FieldLaws : IsElem gf16 0xF ∧ IsElem gf16 0 ∧ IsElem gf16 1 ∧ (0xF : Elem) ≠ 0 := by
  unfold IsElem
  decide +kernel

theorem witness_GmulIsModularProduct : FieldOk (in16 [(1, 15), (2, 0)]).field ∧ (in16 [(1, 15), (2, 0)]).field.valid = true ∧
    ((in16 [(1, 15), (2, 0)]).sreg 1).toNat < (in16 [(1, 15), (2, 0)]).field.size.toNat ∧
    ((in16 [(1, 15), (2, 0)]).sreg 2).toNat < (in16 [(1, 15), (2, 0)]).field.size.toNat :=
  ⟨witness_field_gf16.1, rfl, by decide, by decide⟩

theorem witness_FieldCommandValues : FieldOk (in16 [(1, 15), (2, 1)]).field ∧ (in16 [(1, 15), (2, 1)]).field.valid = true ∧
    ((in16 [(1, 15), (2, 1)]).sreg 1).toNat < (in16 [(1, 15), (2, 1)]).field.size.toNat ∧
    ((in16 [(1, 15), (2, 1)]).sreg 2).toNat < (in16 [(1, 15), (2, 1)]).field.size.toNat ∧
    (in16 [(1, 15), (2, 1)]).sreg 1 ≠ 0 ∧ (in16 [(1, 15), (2, 1)]).sreg 2 ≠ 0 :=
  ⟨witness_field_gf16.1, rfl, by decide, by decide, by decide, by decide⟩

theorem witness_PolyFactories :
    (in16 [(1, 4095), (2, 15)]).field.valid = true ∧ ((in16 [(1, 4095), (2, 15)]).sreg 2).toNat < gf16.size.toNat ∧
    elemOf ((in16 [(1, 4095), (2, 15)]).sreg 2) ≠ 0 ∧ ((in16 [(1, 4095), (2, 15)]).sreg 1).toNat < 4096 ∧
    elemOf ((in16 [(1, 4096), (2, 15)]).sreg 2) ≠ 0 ∧ 4096 ≤ ((in16 [(1, 4096), (2, 15)]).sreg 1).toNat ∧
    (in16 [(1, 4096)]).sreg 2 = 0 := by decide +kernel

theorem witness_monomial (n : Nat) : PolyOk gf16 (1 :: List.replicate n 0) ∧ deg (1 :: List.replicate n 0) = n := by
  have h1 : IsElem gf16 1 := by unfold IsElem; decide +kernel
  have h0 : IsElem gf16 0 := by unfold IsElem; decide +kernel
  refine ⟨⟨by simp, .inl (by simp), ?_⟩, by simp [deg]⟩
  intro x hx
  rcases List.mem_cons.mp hx with rfl | hx
  · exact h1
  · rw [(List.mem_replicate.mp hx).2]
    exact h0

theorem witness_qregs_setQ (s : State) (i : QReg) (p : Poly) (h : QregsOk s) (hv : s.field.valid = true)
    (hp : PolyOk s.field p) : QregsOk (s.setQ i p) := by
  refine ⟨fun _ q => ?_, fun h' => by rw [show (s.setQ i p).field = s.field from rfl, hv] at h'; cases h'⟩
  by_cases hq : q = i
  · subst hq
    rw [qreg_setQ_same]
    exact hp
  · rw [qreg_setQ_other _ _ _ _ hq]
    exact h.1 hv q

/-- x^a in Q1 and x^b in Q2, for every a and b: with a + b = 4095 the longest product that fits, with a + b = 4096 the
shortest that does not. Q3 is 1, to be shifted by 4095, which fits, or by 4096, which does not. -/
theorem witness_PolyAlgebra (a b : Nat) :
    ∃ s : State, s.field = gf16 ∧ QregsOk s ∧ deg (s.qreg 1) + deg (s.qreg 2) = a + b ∧
      s.qreg 1 ≠ [0] ∧ s.qreg 2 ≠ [0] ∧ s.qreg 3 = [1] ∧ (s.sreg 1).toNat = 4095 ∧ (s.sreg 2).toNat = 4096 ∧
      (s.sreg 3).toNat < s.field.size.toNat := by
  have hv : gf16.valid = true := witness_field_gf16.2
  have h3 : ((in16 [(1, 4095), (2, 4096), (3, 15)]).sreg 3).toNat < gf16.size.toNat := by decide +kernel
  refine ⟨(((in16 [(1, 4095), (2, 4096), (3, 15)]).setQ 1 (1 :: List.replicate a 0)).setQ 2 (1 :: List.replicate b 0)).setQ 3 [1],
    rfl, ?_, ?_, ?_, ?_, ?_, rfl, rfl, h3⟩
  · exact witness_qregs_setQ _ 3 [1] (witness_qregs_setQ _ 2 _ (witness_qregs_setQ _ 1 _ (witness_qregs_gf16 _) hv
      (witness_monomial a).1) hv (witness_monomial b).1) hv (witness_monomial 0).1
  · rw [qreg_setQ_other _ _ _ _ (by decide), qreg_setQ_other _ _ _ _ (by decide), qreg_setQ_same,
      qreg_setQ_other _ _ _ _ (by decide), qreg_setQ_same, (witness_monomial a).2, (witness_monomial b).2]
  · rw [qreg_setQ_other _ _ _ _ (by decide), qreg_setQ_other _ _ _ _ (by decide), qreg_setQ_same]
    simp
  · rw [qreg_setQ_other _ _ _ _ (by decide), qreg_setQ_same]
    simp
  · rw [qreg_setQ_same]

theorem witness_EvaluationHomomorphism : PolyOk gf16 [1, 0] ∧ PolyOk gf16 [0] ∧ IsElem gf16 15 :=
  ⟨(witness_monomial 1).1, polyOk_of gf16 [0] (by decide) (by decide) (by decide), by unfold IsElem; decide⟩

theorem witness_PolyReads : FieldOk (in16 [(1, 15)]).field ∧ (in16 [(1, 15)]).field.valid = true ∧ QregsOk (in16 [(1, 15)]) ∧
    ((in16 [(1, 15)]).sreg 1).toNat < (in16 [(1, 15)]).field.size.toNat ∧
    (in16 [(1, 16)]).field.size.toNat ≤ ((in16 [(1, 16)]).sreg 1).toNat :=
  ⟨witness_field_gf16.1, rfl, witness_qregs_gf16 _, by decide, by decide⟩

theorem witness_PzerosListsRoots : FieldOk ((in16 []).setQ 1 [1, 6, 8]).field ∧ ((in16 []).setQ 1 [1, 6, 8]).field.valid = true :=
  witness_field_gf16

theorem witness_PolyTransfer :
    blockInRange (in16 [(1, 8191)]) 8191 ((in16 [(1, 8191)]).qreg 1).length ∧ ((in16 [(1, 8191)]).sreg 1).toNat = 8191 ∧
    ReadableElems ((in16 [(1, 8190), (2, 2)]).withMem 8190 [1, 15]) 8190 2 ∧
    PolyOk gf16 [1, 15] ∧
    (∀ i : Fin 2, Memory.read ((in16 [(1, 8190), (2, 2)]).withMem 8190 [1, 15]).dmem (8190 + i) =
      (([1, 15] : Poly)[i]).setWidth 16) ∧
    4096 < ((in16 [(2, 4097)]).sreg 2).toNat ∧ ¬ blockInRange (in16 [(1, 8190), (2, 3)]) 8190 3 ∧
    ((in16 [(2, 4096)]).sreg 2).toNat ≤ 4096 := by
  refine ⟨?_, rfl, readable_of _ _ _ (by decide) (by decide), polyOk_of _ _ (by decide) (by decide) (by decide), by decide,
    by decide, ?_, by decide⟩ <;> unfold blockInRange <;> decide

theorem witness_RsgenRoots : ((in16 [(1, 15)]).sreg 1).toNat ≤ (in16 []).field.size.toNat - 1 ∧
    (in16 []).field.size.toNat - 1 < ((in16 [(1, 16)]).sreg 1).toNat := by decide +kernel

/-- A message of one word at 0x100, its codeword at 0x200, two parity words. -/
def encodeState : State :=
  (((in16 [(1, 0x100), (2, 1), (3, 0x200), (4, 3), (5, 2)]).withMem 0x100 [9]).setQ 1 [1, 6, 8])

theorem witness_RsencAppendsParity : PolyOk encodeState.field (encodeState.qreg 1) ∧ lead (encodeState.qreg 1) = 1 ∧
    ReadableElems encodeState (encodeState.sreg 1).toNat (encodeState.sreg 2).toNat ∧
    blockInRange encodeState (encodeState.sreg 3).toNat ((encodeState.sreg 2).toNat + deg (encodeState.qreg 1)) := by
  refine ⟨polyOk_of _ _ (by decide) (by decide) (by decide), by decide, readable_of _ _ _ (by decide) (by decide), ?_⟩
  unfold blockInRange
  decide

theorem witness_EncodedWordDecodes : (encodeState.sreg 5).toNat ≤ encodeState.field.size.toNat - 1 ∧
    encodeState.qreg 1 = genPoly encodeState.field (encodeState.sreg 5).toNat ∧
    encodeState.sreg 4 = BitVec.ofNat 32 ((encodeState.sreg 2).toNat + (encodeState.sreg 5).toNat) ∧
    (encodeState.sreg 2).toNat + (encodeState.sreg 5).toNat < 2 ^ 32 ∧ encodeState.faulted = false ∧
    (encodeState.after (.rsenc 1 1 2 3)).faulted = false := by decide +kernel

/-- The codeword of `encodeState` with one word replaced, the most that P = 2 allows, and with none. -/
theorem witness_RoundTrip :
    1 ≤ (encodeState.sreg 5).toNat ∧ 3 = (encodeState.sreg 2).toNat + (encodeState.sreg 5).toNat ∧
    3 ≤ encodeState.field.size.toNat - 1 ∧ (encodeState.sreg 4).toNat = 3 ∧ (encodeState.sreg 3).toNat = 0x200 ∧
    encodeState.qreg 1 = genPoly encodeState.field 2 ∧ (encodeState.after (.rsenc 1 1 2 3)).faulted = false ∧
    (∀ v ∈ (((encodeState.after (.rsenc 1 1 2 3)).withMem 0x201 [0]).words 0x200 3), v.toNat < 16) ∧
    ((List.range 3).filter (fun i => decide (Memory.read ((encodeState.after (.rsenc 1 1 2 3)).withMem 0x201 [0]).dmem (0x200 + i) ≠
      Memory.read (encodeState.after (.rsenc 1 1 2 3)).dmem (0x200 + i)))) = [1] ∧
    ([1] : List Nat).length ≤ 2 / 2 ∧ ([] : List Nat).length ≤ 2 / 2 := by
  refine ⟨by decide, by decide, by decide, by decide, by decide, by decide +kernel, by decide +kernel,
    all_of _ _ (by decide +kernel), by decide +kernel, by decide, by decide⟩

/-- A word of three at the end of DMEM and P = 15. -/
def wordState : State := (in16 [(1, 8189), (2, 3), (3, 15)]).withMem 8189 [0, 5, 15]

theorem witness_RssynSyndromes : FieldOk wordState.field ∧ wordState.field.valid = true ∧
    (wordState.sreg 3).toNat ≤ wordState.field.size.toNat - 1 ∧
    ReadableElems wordState (wordState.sreg 1).toNat (wordState.sreg 2).toNat := by
  exact ⟨witness_field_gf16.1, rfl, by decide, readable_of _ _ _ (by decide) (by decide)⟩

theorem witness_RseucWritesEucfail :
    (1 : QReg) ≠ 2 ∧ 1 ≤ ((in16 [(1, 1)]).sreg 1).toNat ∧ ((in16 [(1, 15)]).sreg 1).toNat ≤ gf16.size.toNat - 1 ∧
    coef (eucLoop gf16 2 3 (eucInit 2 [6, 0])).t 0 = 0 ∧ coef (eucLoop gf16 2 3 (eucInit 2 [1, 1])).t 0 ≠ 0 ∧
    mnemonicOf .bapad ≠ "RSEUC" := by decide +kernel

theorem witness_EuclidBoundSuffices : 1 ≤ 15 ∧ 15 ≤ gf16.size.toNat - 1 ∧ PolyOk gf16 [1, 0, 0] ∧
    PolyOk gf16 [1, 0] ∧ 1 ≤ deg [1, 0] :=
  ⟨by decide, by decide, (witness_monomial 2).1, (witness_monomial 1).1, by decide⟩

theorem witness_RseucKeyEquation : PolyOk gf16 [1, 1] ∧ deg [1, 1] < 2 ∧ (euclid gf16 2 [1, 1]).isSome = true ∧
    PolyOk gf16 [7] ∧ deg [7] < 1 ∧ (euclid gf16 1 [7]).isSome = true ∧ 2 ≤ gf16.size.toNat - 1 :=
  ⟨polyOk_of _ _ (by decide) (by decide) (by decide), by decide, by decide +kernel,
    polyOk_of _ _ (by decide) (by decide) (by decide), by decide, by decide +kernel, by decide⟩

/-- Two roots, with the locators 3 and 14: the first may lie in a word, the second lies before a word of three. -/
theorem witness_RsfixCorrects : RbufOk (wordState.setRbuf [2, 15]) ∧ QregsOk (wordState.setRbuf [2, 15]) ∧
    FieldOk (wordState.setRbuf [2, 15]).field ∧ ReadableElems (wordState.setRbuf [2, 15]) 8189 3 ∧
    logAt gf16 (ginv gf16 9) = 1 ∧ logAt gf16 (ginv gf16 15) = 3 ∧ logAt gf16 (ginv gf16 2) = 14 := by
  refine ⟨rbufOk_of _ (by decide) (by decide), witness_qregs_gf16 [(1, 8189), (2, 3), (3, 15)], witness_field_gf16.1,
    readable_of _ _ _ (by decide) (by decide), by decide, by decide, by decide⟩

/-- The three outcomes over GF(16) with P = 2: the zero word, a word with S0 = 0 and S1 ≠ 0, and a word with one error. -/
theorem witness_RsdecOutcomes :
    ReadableElems ((in16 []).withMem 0x200 [0, 5, 0]) 0x200 3 ∧ (∀ v ∈ syndromes gf16 [0, 0, 0] 2, v = 0) ∧
    (∃ v ∈ syndromes gf16 [1, 2] 2, v ≠ 0) ∧ euclid gf16 2 (syndromePoly (syndromes gf16 [1, 2] 2)) = none ∧
    (∃ v ∈ syndromes gf16 [0, 5, 0] 2, v ≠ 0) ∧ (euclid gf16 2 (syndromePoly (syndromes gf16 [0, 5, 0] 2))).isSome = true := by
  exact ⟨readable_of _ _ _ (by decide) (by decide), all_of _ _ (by decide +kernel), ⟨6, by decide +kernel, by decide⟩,
    by decide +kernel, ⟨10, by decide +kernel, by decide⟩, by decide +kernel⟩

theorem witness_BufferStores : blockInRange (((in16 [(1, 8191)])).setRbuf [9]) 8191 1 ∧
    ¬ blockInRange ((in16 [(1, 8192)]).setRbuf [9]) 8192 1 ∧ blockInRange (in16 [(1, 8192)]) 8192 0 ∧
    (in16 [(1, 8192)]).field.valid = true := by
  unfold blockInRange
  decide +kernel

/-- A stream of width 6 with the bits 101. -/
def stream101 : BitStream := ⟨⟨6, false, 3, 0b101, 3, 0⟩, []⟩

theorem stream101_ok : StreamOk stream101 :=
  .inr ⟨by decide, by decide, by decide, by decide, by decide, by decide, fun _ h => absurd h List.not_mem_nil,
    fun _ _ h => absurd h List.not_mem_nil⟩

theorem witness_BitStreamCommands_bapad :
    StreamOk (⟨⟨6, false, 6, 0, 0, 0⟩, [7]⟩ : BitStream) ∧ StreamOk stream101 ∧ (⟨6, false, 6, 0, 0, 0⟩ : Packer).baw ≠ 0 ∧
    (⟨6, false, 6, 0, 0, 0⟩ : Packer).bacurlen = 0 ∧
    4096 ≤ (⟨⟨6, false, 24579, 5, 3, 0⟩, List.replicate 4096 1⟩ : BitStream).words.length ∧
    (⟨6, false, 24579, 5, 3, 0⟩ : Packer).bacurlen ≠ 0 := by
  refine ⟨.inr ⟨by decide, by decide, by decide, by decide, by decide, by decide, all_of _ _ (by decide), fun _ => all_of _ _ (by decide)⟩,
    stream101_ok, by decide, by decide, ?_, by decide⟩
  show 4096 ≤ (List.replicate 4096 (1 : Half)).length
  rw [List.length_replicate]

theorem witness_BitStreamCommands :
    2 ≤ ((inRegs [(1, 2)]).sreg 1).toNat ∧ ((inRegs [(1, 16)]).sreg 1).toNat ≤ 16 ∧
    ((inRegs [(1, 1)]).sreg 1).toNat < 2 ∧ 16 < ((inRegs [(1, 17)]).sreg 1).toNat ∧
    State.reset.stream.packer.baw = 0 ∧ stream101.packer.baw ≠ 0 ∧ 32 < ((inRegs [(1, 33)]).sreg 1).toNat ∧
    ((inRegs [(1, 32)]).sreg 1).toNat ≤ 32 ∧ stream101.packer.bacurlen ≠ 0 ∧ stream101.words.length < 4096 ∧
    (Packer.init 6 false).bacurlen = 0 ∧ StreamOk stream101 :=
  ⟨by decide, by decide, by decide, by decide, by decide, by decide, by decide, by decide, by decide, by decide, by decide,
    stream101_ok⟩

/-- A full buffer and one more word: BAAPP of two bits to a stream of width 2. -/
theorem witness_BitStreamCommands_overflow :
    (⟨2, true, 8192, 0, 0, 0⟩ : Packer).run (msbFirst 2 3) = (⟨2, true, 8194, 0, 0, 0⟩, [3]) ∧
    (List.replicate 4096 (1 : Half)).length = 4096 := ⟨by decide, List.length_replicate ..⟩

/-- With stuffing the bits 00000111110 at width 6 give the words 000001 and 111110, both ended by a stuffed bit, and the partial
word 0; at width 2 every completed word ends in one. -/
theorem witness_StreamHoldsAppendedBits_stuffed :
    (Packer.init 6 false).run [false, false, false, false, false, true, true, true, true, true, false] =
      (⟨6, false, 13, 0, 1, 2⟩, [0b000001, 0b111110]) ∧ endsStuffed 6 0b000001 = true ∧ endsStuffed 6 0b111110 = true ∧
    (Packer.init 2 false).run [true, false, true] = (⟨2, false, 5, 1, 1, 2⟩, [0b10, 0b01]) ∧ endsStuffed 2 0b10 = true := by
  decide

theorem witness_StreamHoldsAppendedBits : 2 ≤ (2 : BitVec 5).toNat ∧ (16 : BitVec 5).toNat ≤ 16 ∧
    (Packer.init 2 true).run [true, false, true] = (⟨2, true, 3, 1, 1, 0⟩, [2]) := by decide

/-- The text "A" at width 6 and the empty text at width 12. -/
theorem witness_ModeEncoderCommands :
    ((inRegs [(3, 6)]).sreg 3).toNat ∈ [6, 8, 10, 12] ∧ blockInRange (State.reset.withMem 0x500 [0x41]) 0x500 1 ∧
    (∀ v ∈ Memory.readBlock (State.reset.withMem 0x500 [0x41]).dmem 0x500 1, v.toNat < 256) ∧
    ((Packer.init 6 false).run (chosenSlot (finalBank defaultAztecTables 6 [0x41])).2.bits).2.length < 4096 ∧
    ((Packer.init 12 false).run (chosenSlot (finalBank defaultAztecTables 12 [])).2.bits).1.bacurlen = 0 ∧
    ((Packer.init 12 false).run (chosenSlot (finalBank defaultAztecTables 12 [])).2.bits).2.length < 4096 ∧
    (12 : BitVec 5).toNat ∈ [6, 8, 10, 12] ∧ ((inRegs [(3, 7)]).sreg 3).toNat ∉ [6, 8, 10, 12] ∧
    ((inRegs [(3, 5)]).sreg 3).toNat = (5 : Fin 6) ∧ 5 < ((inRegs [(3, 6)]).sreg 3).toNat := by
  refine ⟨by decide, ?_, all_of _ _ (by decide), by decide +kernel, by decide +kernel, by decide +kernel, by decide, by decide, by decide, by decide⟩
  unfold blockInRange
  decide

theorem witness_ChosenSlotIsCheapest : selectSlot initialBank = some (.chr .upper, initialSlot) ∧
    bankGet initialBank (.chr .upper) = some initialSlot ∧ ([0x41] : List Nat) ≠ [] := by decide

/-- The text "A": slots U and B are filled, and each kind of edge leaves slot U. -/
theorem witness_SlotsFollowTheEdges :
    bankGet (finalBank defaultAztecTables 6 [0x41]) (.chr .upper) = some ⟨[false, false, false, true, false], 5, none⟩ ∧
    ((bankGet (finalBank defaultAztecTables 6 [0x41]) .bin).bind (fun sl => sl.binRun)) = some ⟨.upper, 1, 5⟩ ∧
    IsCurrentMode (.chr .upper) ⟨[false, false, false, true, false], 5, none⟩ .upper ∧
    aztecChar defaultAztecTables .lower 0x7A = some ⟨27, 5⟩ ∧ aztecShift defaultAztecTables .upper .punct = some ⟨0, 5⟩ ∧
    aztecChar defaultAztecTables .punct 0x21 = some ⟨6, 5⟩ ∧ CharMode.mixed ∈ aztecBsFrom defaultAztecTables ∧
    aztecPair defaultAztecTables 0x0D 0x0A = some 2 :=
  ⟨by decide +kernel, by decide +kernel, .inl rfl, by decide, by decide, by decide, by decide, by decide⟩

/-- A lookup with two widths, and the two ways a pass goes on: the empty text costs 0. -/
theorem witness_WidthLoopPasses :
    (∀ c w, (fun c : Nat => if c = 0 then some 6 else some 8) c = some w → w ∈ [6, 8, 10, 12]) ∧
    (mencPass 4 1 2 3 6 State.reset).faulted = false ∧
    (fun c : Nat => if c = 0 then some 6 else some 8) (mencPass 4 1 2 3 6 State.reset).menc.mcost.toNat = some 6 ∧
    (fun _ : Nat => some 8) (mencPass 4 1 2 3 6 State.reset).menc.mcost.toNat = some 8 := by
  refine ⟨fun c w h => ?_, by decide +kernel, by decide +kernel, by decide +kernel⟩
  by_cases hc : c = 0
  · simp [hc] at h; simp [← h]
  · simp [hc] at h; simp [← h]

theorem witness_ScalarCommandFrame : isScalarCommand (.li 1 5) = true ∧ scalarDest (.li 1 5) ≠ some 2 ∧
    isScalarCommand .nop = true ∧ isScalarCommand (.mslot 15 0) = true := by decide

theorem witness_PolyCommandFrame : polyDests (.rseuc 2 3 1 5) ≠ [] ∧ (1 : QReg) ∉ polyDests (.rseuc 2 3 1 5) ∧
    polyDests (.pone 2) ≠ [] ∧ mnemonicOf (.pone 2) ≠ "RSSYN" ∧ mnemonicOf (.pone 2) ≠ "RSEUC" := by decide

theorem witness_StoreCommandFrame : storedBlock (.stw 1 2) (inRegs [(2, 8191)]) = some (8191, 1) ∧
    storedBlock (.rbst 1 2) ((inRegs [(2, 5)]).setRbuf [3, 4]) = some (5, 2) ∧
    mnemonicOf (.rbst 1 2) ≠ "RSDEC" ∧ mnemonicOf (.rbst 1 2) ≠ "RSFIX" ∧ scalarDest (.rbst 1 2) ≠ some 3 := by decide

theorem witness_StreamCommandFrame : mnemonicOf .bapad ∈ ["BAINIT", "BAAPP", "BAPAD"] ∧
    mnemonicOf (.bast 1 2) ∉ ["BAINIT", "BAAPP", "BAPAD", "MENC"] := by decide

theorem witness_UnitCommandFrame : mnemonicOf (.fcfg 1 2 3) ∈ ["FCFG", "PZEROS", "MENC"] ∧
    mnemonicOf (.pzeros 1 0) ∈ ["FCFG", "PZEROS", "MENC"] ∧ mnemonicOf (.menc 4 1 2 3) ∈ ["FCFG", "PZEROS", "MENC"] := by
  decide

theorem witness_ScalarWriters : (State.reset.after (.li 1 5)).sreg 1 ≠ State.reset.sreg 1 := by decide

/-- A state with a command to run. -/
def runningState : State := (in16 [(1, 9), (2, 7)]).queue [0x48C48000]

/-- The running state steps: this is the step of every invariant statement's witness. -/
theorem witness_step : step runningState = .next ((runningState.queue []).after (.gmul 3 1 2)) := by
  rw [step_noHost _ 0x48C48000 [] rfl rfl rfl rfl]
  exact exec_after (.gmul 3 1 2) (runningState.queue [])

theorem witness_StepKeepsMemory : MemOk runningState ∧ MemOk (wordState.withMem 3 [7]) := by
  unfold MemOk
  decide

theorem witness_StepKeepsFaultAndFifo : FaultOk runningState ∧ FifoOk runningState ∧ FaultOk executingState := by
  refine ⟨⟨fun h => absurd h (by decide), fun _ => rfl⟩, ?_, ⟨fun h => absurd h (by decide), fun _ => rfl⟩⟩
  unfold FifoOk
  decide

theorem witness_StepKeepsField : FieldOk runningState.field ∧ RbufOk runningState ∧ RbufOk (runningState.setRbuf [2, 15]) := by
  exact ⟨witness_field_gf16.1, rbufOk_of _ (by decide) (by decide), rbufOk_of _ (by decide) (by decide)⟩

theorem witness_StepKeepsPolynomials : FieldOk runningState.field ∧ QregsOk runningState :=
  ⟨witness_field_gf16.1, witness_qregs_gf16 [(1, 9), (2, 7)]⟩

theorem witness_StepKeepsPolynomialLength : FieldOk runningState.field ∧ QregsOk runningState ∧ QregsFit runningState :=
  ⟨witness_field_gf16.1, witness_qregs_gf16 [(1, 9), (2, 7)], by unfold QregsFit; decide⟩

theorem witness_StepKeepsStream : StreamOk stream101 ∧ MencOk { runningState with stream := stream101 } := by
  refine ⟨stream101_ok, ?_⟩
  unfold MencOk
  decide

theorem witness_EveryStepIsSafe : Inv runningState where
  field := witness_field_gf16.1
  qregs := witness_StepKeepsPolynomials.2
  qfit := witness_StepKeepsPolynomialLength.2.2
  rbuf := witness_StepKeepsField.2.1
  stream := .inl rfl
  mem := witness_StepKeepsMemory.1
  fault := witness_StepKeepsFaultAndFifo.1
  fifo := witness_StepKeepsFaultAndFifo.2.1
  menc := witness_StepKeepsStream.2

end Sys2Proof.Machine
end

section
/-! PROOF. What a command leaves of the control registers when it ends, the command counter (10_state.md R43) and the ID
register (R39). -/

namespace Sys2Proof.Machine

/-! ### Results of a sequence of checks -/

/-- Every result the sequence of checks `r` can end with meets `P`. -/
def AllOk {α : Type} (P : α → Prop) (r : Except Cause α) : Prop :=
  ∀ a, r = .ok a → P a

@[simp] theorem allOk_ok {α : Type} (P : α → Prop) (a : α) : AllOk P (.ok a) ↔ P a := by
  simp [AllOk]

@[simp] theorem allOk_error {α : Type} (P : α → Prop) (c : Cause) : AllOk P (.error c) := by
  simp [AllOk]

/-- A check in front hands its own results on. -/
@[simp] theorem allOk_bind {α β : Type} (P : β → Prop) (x : Except Cause α) (f : α → Except Cause β) :
    AllOk P (x >>= f) ↔ ∀ a, x = .ok a → AllOk P (f a) := by
  cases x <;> simp

/-! ### The control state -/

/-- The part of the state that only the end of a command, the executor and the host change: the executor's state with CAUSE
and FCMD, CMDCNT, the parameters and the record of the host. -/
structure Control where
  fifo : List Word
  running : Option Word
  faulted : Bool
  cause : BitVec 8
  fcmd : Word
  cmdcnt : Word
  cfg : Config
  hostIn : List HostOp
  hostOut : List Word
  freeCount : Nat

/-- The control state of a state. -/
def State.control (s : State) : Control :=
  ⟨s.fifo, s.running, s.faulted, s.cause, s.fcmd, s.cmdcnt, s.cfg, s.hostIn, s.hostOut, s.freeCount⟩

section
variable (s : State)

@[simp] theorem control_setS (i : SReg) (v : Word) : (s.setS i v).control = s.control := rfl
@[simp] theorem control_setQ (i : QReg) (p : Poly) : (s.setQ i p).control = s.control := rfl
@[simp] theorem control_setMem (m : Memory) : (s.setMem m).control = s.control := rfl
@[simp] theorem control_setStream (b : BitStream) : (s.setStream b).control = s.control := rfl
@[simp] theorem control_setRbuf (r : List Elem) : (s.setRbuf r).control = s.control := rfl
@[simp] theorem control_setDnfix (n : Nat) : (s.setDnfix n).control = s.control := rfl
@[simp] theorem control_setMenc (r : MencResult) : (s.setMenc r).control = s.control := rfl
@[simp] theorem control_setSynz (b : Bool) : (s.setSynz b).control = s.control := rfl
@[simp] theorem control_setEucfail (b : Bool) : (s.setEucfail b).control = s.control := rfl
@[simp] theorem control_setDstat (d : DStat) : (s.setDstat d).control = s.control := rfl
@[simp] theorem control_commitField (F : FieldCfg) : (commitField F s).control = s.control := rfl

end

/-! ### How a command ends -/

/-- The states the command `i` begun in `s` can end in: its effects leave the control state as it was in `s`, and then the
command retires or its fault is recorded. -/
inductive EndsFrom (i : Instr) (s : State) : State → Prop
  | retired {u : State} (hu : u.control = s.control) : EndsFrom i s (retire u)
  | faulted {u : State} (hu : u.control = s.control) (c : Cause) : EndsFrom i s (takeFault (encode i) c u)

/-- `finish` ends the command where each result of its checks leaves the control state. -/
theorem endsFrom_finish {i : Instr} {s s' t : State} {r : Except Cause State} (hs : s'.control = s.control)
    (hr : AllOk (fun u => u.control = s.control) r) (h : finish i s' r = .next t) : EndsFrom i s t := by
  rcases (finish_next i s' t r).1 h with ⟨u, hu, rfl⟩ | ⟨c, -, rfl⟩
  · exact .retired (hr u hu)
  · exact .faulted hs c

/-- FCFG ends from its state: its commit, of a field or of none, leaves the control state. -/
theorem endsFrom_fcfg {a b c : SReg} {s t : State} (h : exec (.fcfg a b c) s = .next t) :
    EndsFrom (.fcfg a b c) s t := by
  simp only [exec, execFcfg] at h
  split at h
  · exact endsFrom_finish rfl (by simp) h
  · exact endsFrom_finish (control_commitField s FieldCfg.none) (by simp) h

/-- RSEUC ends from its state, whether the Euclidean solver finds a locator or not (44_rs_decoder.md R262). -/
theorem endsFrom_rseuc {qsig qomg qs : QReg} {rp : SReg} {s t : State} (h : exec (.rseuc qsig qomg qs rp) s = .next t) :
    EndsFrom (.rseuc qsig qomg qs rp) s t := by
  refine endsFrom_finish rfl ?_ h
  simp only [allOk_bind]
  intro _ _ F _ _ _
  split <;> simp

/-- RSDEC ends from its state in each of its three outcomes (44_rs_decoder.md R280 to R283). -/
theorem endsFrom_rsdec {rd raddr rn rp : SReg} {s t : State} (h : exec (.rsdec rd raddr rn rp) s = .next t) :
    EndsFrom (.rsdec rd raddr rn rp) s t := by
  refine endsFrom_finish rfl ?_ h
  simp only [allOk_bind]
  intro F _ P _ _ _ w _
  split
  · simp
  · split <;> simp

/-- Every command ends from the state it began in (60_exceptions.md R410 to R412): it is `finish` of a sequence of checks that
ends in updates of registers, units and DMEM, none of which touches the control state. -/
theorem exec_endsFrom {i : Instr} {s t : State} (h : exec i s = .next t) : EndsFrom i s t := by
  cases i
  case fcfg => exact endsFrom_fcfg h
  case rseuc => exact endsFrom_rseuc h
  case rsdec => exact endsFrom_rsdec h
  case nop | li | lih | mov =>
    cases h
    exact .retired rfl
  case rdcsr | mslot =>
    refine endsFrom_finish rfl ?_ h
    split <;> simp
  all_goals exact endsFrom_finish rfl (by simp) h

/-! ### RDCSR, CSR reads and words that are no command -/

/-- RDCSR of a CSR that is not reserved puts its value into the register and retires (40_support.md R138). -/
theorem exec_rdcsr_of_some {csr : BitVec 10} {s : State} {v : Word} (h : csrInCommand s csr.toNat = some v) (rd : SReg) :
    exec (.rdcsr rd csr) s = .next (retire (s.setS rd v)) := by
  simp [exec, execRdcsr, h]

/-- A host read of a CSR that is not reserved answers its value (20_memory.md R86). -/
theorem hostReadCsr_of_some {n : Nat} {s : State} {v : Word} (h : csrFromHost s n = some v) :
    hostReadCsr n s = answerHost v s := by
  simp [hostReadCsr, h]

/-- A word that decodes to no command takes ILLEGAL_COMMAND (30_encoding.md R112). -/
theorem runWord_of_error {w : Word} {e : DecodeError} (h : decode w = .error e) (s : State) :
    runWord w s = .next (takeFault w .illegalCommand s) := by
  simp [runWord, h]

/-- Retirement leaves the scalar registers. -/
@[simp] theorem sreg_retire (s : State) (i : SReg) : (retire s).sreg i = s.sreg i := rfl

/-! ### CMDCNT and ID -/

/-- A command begun in a fault-free state counts exactly when it ends fault-free. -/
theorem EndsFrom.cmdcnt_eq {i : Instr} {s t : State} (h : EndsFrom i s t) (hf : s.faulted = false) :
    t.cmdcnt = if t.faulted then s.cmdcnt else s.cmdcnt + 1 := by
  cases h with
  | @retired u hu =>
    have hc : u.cmdcnt = s.cmdcnt := congrArg Control.cmdcnt hu
    have hn : u.faulted = false := (congrArg Control.faulted hu).trans hf
    simp [hc, hn]
  | @faulted u hu c =>
    have hc : u.cmdcnt = s.cmdcnt := congrArg Control.cmdcnt hu
    simp [hc]

/-- Settles O12: retirement and the recording of a fault are the only ways a command ends, and only the first counts. -/
theorem commandCounter : Obligations.CommandCounter := by
  refine ⟨fun i s t hf h => (exec_endsFrom h).cmdcnt_eq hf, fun rd s => ?_, fun s w e h => ?_, rfl⟩
  · have hcsr : csrInCommand s (0x004 : BitVec 10).toNat = some s.cmdcnt := rfl
    exact ⟨_, exec_rdcsr_of_some hcsr rd, by simp, by simp⟩
  · exact ⟨_, runWord_of_error h s, takeFault_cmdcnt s w _⟩

/-- Settles O16: entry 0 of the CSR map is the constant ID, for a command and for the host. -/
theorem idRegister : Obligations.IdRegister := by
  refine ⟨fun rd s => exec_rdcsr_of_some rfl rd, fun s => ?_, by decide⟩
  have hcsr : csrFromHost s 0 = some 0x47414201 := rfl
  rw [hostReadCsr_of_some hcsr, answerHost_hostOut]

end Sys2Proof.Machine
end

section
/-! PROOF. The worked encodings of R121 (30_encoding.md). -/

namespace Sys2Proof.Machine

/-- Settles O1: seven fixed words and seven fixed commands, so the decoder and the encoder are evaluated on each. -/
theorem workedEncodings : Obligations.WorkedEncodings := by
  unfold Obligations.WorkedEncodings
  decide

end Sys2Proof.Machine
end

section
/-! PROOF. NOP, LI and LIH: their words, and LI then LIH (40_support.md R130 to R132). -/

namespace Sys2Proof.Machine

/-! ### Words of the opcodes 0, 1 and 2 -/

/-- A word whose fields of format R (30_encoding.md R101) are all 0 is 0. -/
theorem eq_zero_of_fields_eq_zero {w : Word} (hop : field w 26 6 = 0) (ha : field w 22 4 = 0) (hb : field w 18 4 = 0)
    (hc : field w 14 4 = 0) (hd : field w 10 4 = 0) (himm : field w 0 10 = 0) : w = 0 := by
  simp only [field, Nat.reducePow] at *
  bv_omega

/-- A row rejects a word whose fixed bits are not as they must be (30_encoding.md R112 (2)). -/
theorem need_of_not {fixed : Prop} [Decidable fixed] (h : ¬ fixed) (i : Instr) : need fixed i = .error .fixedBits :=
  if_neg h

/-- The word 0 is the only command with opcode 0 (40_support.md R130). -/
theorem decode_opcode_zero_of_ne {w : Word} (hop : field w 26 6 = 0x00) (hw : w ≠ 0) : decode w = .error .fixedBits := by
  rw [decode, hop]
  refine need_of_not ?_ .nop
  rintro ⟨ha, hb, hc, hd, himm⟩
  exact hw (eq_zero_of_fields_eq_zero hop ha hb hc hd himm)

/-- A word of LI or LIH with a nonzero field 21:16 is no command (40_support.md R131, R132). -/
theorem decode_immediate_of_ne {w : Word} (hop : field w 26 6 = 0x01 ∨ field w 26 6 = 0x02) (hz : field w 16 6 ≠ 0) :
    decode w = .error .fixedBits := by
  rcases hop with hop | hop <;> rw [decode, hop]
  · exact need_of_not hz (.li _ _)
  · exact need_of_not hz (.lih _ _)

/-! ### The meanings -/

/-- NOP retires (40_support.md R130). -/
theorem exec_nop (s : State) : exec .nop s = .next (retire s) := rfl

/-- LI writes its immediate zero-extended and retires (40_support.md R131). -/
theorem exec_li (rd : SReg) (imm : BitVec 16) (s : State) :
    exec (.li rd imm) s = .next (retire (s.setS rd (imm.setWidth 32))) := rfl

/-- LIH writes its immediate over the low half that rd had and retires (40_support.md R132). -/
theorem exec_lih (rd : SReg) (imm : BitVec 16) (s : State) :
    exec (.lih rd imm) s = .next (retire (s.setS rd (imm ++ (s.sreg rd).setWidth 16))) := rfl

/-- Masking with 0xFFFF keeps the low half. -/
theorem and_low_mask (v : Word) : v &&& 0xFFFF = (v.setWidth 16).setWidth 32 := by
  apply BitVec.eq_of_toNat_eq
  calc v.toNat &&& 0xFFFF = v.toNat % 2 ^ 16 := Nat.and_two_pow_sub_one_eq_mod v.toNat 16
    _ = v.toNat % 2 ^ 16 % 2 ^ 32 := by omega
    _ = ((v.setWidth 16).setWidth 32).toNat := by simp only [BitVec.toNat_setWidth]

/-- A half over the low half of a word, in R132's own terms: shifted into bits 31:16 beside the masked word. -/
theorem append_low_half (imm : BitVec 16) (v : Word) :
    imm ++ v.setWidth 16 = ((imm.setWidth 32) <<< 16) ||| (v &&& 0xFFFF) := by
  rw [and_low_mask, ← BitVec.setWidth_append_eq_shiftLeft_setWidth_or, BitVec.setWidth_eq]

/-- LI of the low half, then LIH of the high half, leave the whole word in rd (40_support.md R132). -/
theorem sreg_of_li_lih {rd : SReg} {v : Word} {s t u : State} (hli : exec (.li rd (v.extractLsb' 0 16)) s = .next t)
    (hlih : exec (.lih rd (v.extractLsb' 16 16)) t = .next u) : u.sreg rd = v := by
  rw [exec_li] at hli
  cases hli
  rw [exec_lih] at hlih
  cases hlih
  calc (retire _).sreg rd = v.extractLsb' 16 16 ++ ((v.extractLsb' 0 16).setWidth 32).setWidth 16 := by simp
    _ = v.extractLsb' 16 16 ++ v.extractLsb' 0 16 := by simp
    _ = v := BitVec.extractLsb'_append_extractLsb'

/-- Settles O17: each meaning is an equation of its own, and the illegal words fail the fixed bits of their rows. -/
theorem nopAndImmediates : Obligations.NopAndImmediates := by
  refine ⟨exec_nop, rfl, fun s w hop hw => runWord_of_error (decode_opcode_zero_of_ne hop hw) s, exec_li,
    fun rd s => exec_li rd 0xFFFF s, rfl, fun rd imm s => ?_, rfl, fun _ _ _ _ _ => sreg_of_li_lih,
    fun s w hop hz => runWord_of_error (decode_immediate_of_ne hop hz) s⟩
  rw [exec_lih, append_low_half]

end Sys2Proof.Machine
end

section
/-! PROOF. The field FCFG builds (41_field.md R151 to R155): its tables hold the powers of 2 and their logarithms, a product by
2^i is `i` doublings, and the field laws of R165 follow. -/

namespace Sys2Proof.Machine

/-! ### Doubling modulo the generator -/

/-- XOR of two numbers doubled. -/
theorem two_mul_xor (x y : Nat) : 2 * (x ^^^ y) = 2 * x ^^^ 2 * y := by
  simpa [Nat.shiftLeft_eq, Nat.mul_comm] using Nat.shiftLeft_xor_distrib (i := 1) (a := x) (b := y)

/-- The reduction of R154 by the generator, as one XOR that depends on the top bit alone. -/
theorem doubleStep_two_pow {k gen x : Nat} (hx : x < 2 ^ (k + 1)) :
    doubleStep (2 ^ (k + 1)) gen x = (2 * x ^^^ if x.testBit k then gen else 0) % 2 ^ (k + 1) := by
  have hpow : 2 ^ (k + 1) = 2 * 2 ^ k := by omega
  rw [doubleStep]
  split
  next hle => rw [Nat.testBit_of_two_pow_le_and_two_pow_add_one_gt (by omega) hx, if_pos rfl, Nat.and_two_pow_sub_one_eq_mod]
  next hlt =>
    rw [Nat.testBit_lt_two_pow (by omega), if_neg Bool.false_ne_true, Nat.xor_zero, Nat.mod_eq_of_lt (by omega)]

/-- Doubling is additive: the reduction is a function of the top bit, which adds. -/
theorem doubleStep_two_pow_xor {k gen x y : Nat} (hx : x < 2 ^ (k + 1)) (hy : y < 2 ^ (k + 1)) :
    doubleStep (2 ^ (k + 1)) gen (x ^^^ y) = doubleStep (2 ^ (k + 1)) gen x ^^^ doubleStep (2 ^ (k + 1)) gen y := by
  have htop : (if x.testBit k ^^ y.testBit k then gen else 0) =
      (if x.testBit k then gen else 0) ^^^ (if y.testBit k then gen else 0) := by
    cases x.testBit k <;> cases y.testBit k <;> simp
  rw [doubleStep_two_pow (Nat.xor_lt_two_pow hx hy), doubleStep_two_pow hx, doubleStep_two_pow hy, ← Nat.xor_mod_two_pow,
    two_mul_xor, Nat.testBit_xor, htop]
  simp only [Nat.xor_assoc, Nat.xor_left_comm]

@[simp] theorem doubleStep_zero (size gen : Nat) : doubleStep size gen 0 = 0 := by
  cases size <;> simp [doubleStep]

/-- Zero stays zero under doubling. -/
@[simp] theorem doubleStep_iterate_zero (size gen i : Nat) : (doubleStep size gen)^[i] 0 = 0 :=
  Function.iterate_fixed (doubleStep_zero size gen) i

/-! ### Legal parameters and the powers of 2 -/

section
variable {size gen base : Nat}

/-- A legal size lies in 2..4096 (41_field.md R151). -/
theorem LegalField.size_mem (h : LegalField size gen base) : 2 ≤ size ∧ size ≤ 4096 := by
  obtain ⟨⟨m, h1, h12, rfl⟩, -⟩ := h
  exact ⟨Nat.pow_le_pow_right (n := 2) (by omega) h1, Nat.pow_le_pow_right (n := 2) (by omega) h12⟩

/-- A legal size is a power of two with a positive exponent. -/
theorem LegalField.exists_size_eq (h : LegalField size gen base) : ∃ k, size = 2 ^ (k + 1) := by
  obtain ⟨⟨m, h1, -, hm⟩, -⟩ := h
  exact ⟨m - 1, by rw [hm, Nat.sub_add_cancel h1]⟩

/-- The sum of two elements is an element. -/
theorem LegalField.xor_lt (h : LegalField size gen base) {x y : Nat} (hx : x < size) (hy : y < size) : x ^^^ y < size := by
  obtain ⟨k, rfl⟩ := h.exists_size_eq
  exact Nat.xor_lt_two_pow hx hy

/-- Doubling an element `i` times answers an element. -/
theorem LegalField.iterate_lt (h : LegalField size gen base) {x : Nat} (hx : x < size) (i : Nat) :
    (doubleStep size gen)^[i] x < size := by
  obtain ⟨k, rfl⟩ := h.exists_size_eq
  induction i with
  | zero => exact hx
  | succ i ih =>
    rw [Function.iterate_succ_apply', doubleStep_two_pow ih]
    exact Nat.mod_lt _ (by positivity)

/-- Doubling `i` times is additive on elements. -/
theorem LegalField.iterate_xor (h : LegalField size gen base) {x y : Nat} (hx : x < size) (hy : y < size) (i : Nat) :
    (doubleStep size gen)^[i] (x ^^^ y) = (doubleStep size gen)^[i] x ^^^ (doubleStep size gen)^[i] y := by
  induction i with
  | zero => rfl
  | succ i ih =>
    have hxi := h.iterate_lt hx i
    have hyi := h.iterate_lt hy i
    obtain ⟨k, rfl⟩ := h.exists_size_eq
    simp only [Function.iterate_succ_apply', ih, doubleStep_two_pow_xor hxi hyi]

theorem LegalField.powerRef_lt (h : LegalField size gen base) (i : Nat) : powerRef size gen i < size :=
  h.iterate_lt (by have := h.size_mem; omega) i

/-- 2^(i+j) is 2^j doubled `i` times. -/
theorem powerRef_add (size gen i j : Nat) : powerRef size gen (i + j) = (doubleStep size gen)^[i] (powerRef size gen j) :=
  Function.iterate_add_apply _ i j 1

/-- R154's two checks say that 2 has multiplicative order size - 1. -/
theorem LegalField.minimalPeriod_eq (h : LegalField size gen base) :
    Function.minimalPeriod (doubleStep size gen) 1 = size - 1 := by
  have hsize := h.size_mem
  obtain ⟨-, -, -, -, hne, hone⟩ := h
  have hle := Function.IsPeriodicPt.minimalPeriod_le (by omega) hone
  have hpos := Function.IsPeriodicPt.minimalPeriod_pos (by omega) hone
  by_contra hlt
  exact hne _ hpos (by omega) Function.iterate_minimalPeriod

/-- Exponents count modulo size - 1. -/
theorem LegalField.powerRef_mod (h : LegalField size gen base) (i : Nat) :
    powerRef size gen (i % (size - 1)) = powerRef size gen i := by
  rw [← h.minimalPeriod_eq]
  exact Function.iterate_mod_minimalPeriod_eq

/-- The powers of 2 below size - 1 are distinct. -/
theorem LegalField.powerRef_inj (h : LegalField size gen base) {i j : Nat} (hi : i < size - 1) (hj : j < size - 1) :
    powerRef size gen i = powerRef size gen j ↔ i = j := by
  rw [← h.minimalPeriod_eq] at hi hj
  exact Function.iterate_injOn_Iio_minimalPeriod.eq_iff hi hj

/-- No power of 2 is 0: from 0 no doubling leads back to 1. -/
theorem LegalField.powerRef_ne_zero (h : LegalField size gen base) (i : Nat) : powerRef size gen i ≠ 0 := by
  intro h0
  have hsize := h.size_mem
  have hmul : i * (size - 1) = (i * (size - 1) - i) + i := by
    have := Nat.le_mul_of_pos_right i (show 0 < size - 1 by omega)
    omega
  have hone : powerRef size gen (i * (size - 1)) = 1 := by
    rw [← h.powerRef_mod, Nat.mul_mod_left]
    rfl
  rw [hmul, powerRef_add, h0, doubleStep_iterate_zero] at hone
  exact Nat.zero_ne_one hone

/-- Every nonzero element is a power of 2: the powers below size - 1 are as many as the nonzero elements. -/
theorem LegalField.exists_powerRef (h : LegalField size gen base) {v : Nat} (h0 : v ≠ 0) (hv : v < size) :
    ∃ i < size - 1, powerRef size gen i = v := by
  have hmaps : Set.MapsTo (powerRef size gen) (Finset.range (size - 1)) (Finset.Ico 1 size) := fun i _ => by
    have := h.powerRef_ne_zero i
    have := h.powerRef_lt i
    simp only [Finset.coe_Ico, Set.mem_Ico]
    omega
  have hinj : Set.InjOn (powerRef size gen) (Finset.range (size - 1)) := fun i hi j hj hij =>
    (h.powerRef_inj (by simpa using hi) (by simpa using hj)).1 hij
  have hsurj := Finset.surjOn_of_injOn_of_card_le _ hmaps hinj (by simp)
  obtain ⟨i, hi, rfl⟩ := hsurj (show v ∈ (Finset.Ico 1 size : Set Nat) by simp only [Finset.coe_Ico, Set.mem_Ico]; omega)
  exact ⟨i, by simpa using hi, rfl⟩

end

/-! ### What FCFG's checks say and what it builds -/

/-- The size check of R151. -/
theorem sizeLog_eq_some {size m : Nat} (h : sizeLog size = some m) : 1 ≤ m ∧ m ≤ 12 ∧ size = 2 ^ m := by
  rw [sizeLog] at h
  have hpow : 2 ^ m = size := by simpa using List.find?_some h
  have hmem := List.mem_range'_1.1 (List.mem_of_find?_eq_some h)
  have hmax : Config.fieldMaxM = 12 := rfl
  omega

/-- R154's loop lists the iterates of doubling. -/
theorem expFrom_eq_iterate (size gen n x : Nat) : expFrom size gen n x = List.iterate (doubleStep size gen) x n := by
  induction n generalizing x with
  | zero => rfl
  | succ n ih => rw [expFrom, ih, List.iterate]

@[simp] theorem length_expTable (size gen : Nat) : (expTable size gen).length = size := by
  rw [expTable, expFrom_eq_iterate, List.length_iterate]

@[simp] theorem getElem_expTable {size gen i : Nat} (h : i < (expTable size gen).length) :
    (expTable size gen)[i] = powerRef size gen i := by
  simp only [expTable, expFrom_eq_iterate, List.getElem_iterate, powerRef]

theorem getElem?_expTable {size gen i : Nat} (h : i < size) : (expTable size gen)[i]? = some (powerRef size gen i) := by
  rw [List.getElem?_eq_getElem (by simpa using h), getElem_expTable]

/-- The two checks of R154 on the table are the two conditions on the powers of 2. -/
theorem primitiveTable_expTable_iff {size gen : Nat} (h : 2 ≤ size) :
    primitiveTable size (expTable size gen) = true ↔
      (∀ i, 1 ≤ i → i ≤ size - 2 → powerRef size gen i ≠ 1) ∧ powerRef size gen (size - 1) = 1 := by
  have hone : ((expTable size gen)[size - 1]? == some 1) = true ↔ powerRef size gen (size - 1) = 1 := by
    simp [getElem?_expTable (show size - 1 < size by omega)]
  have hne : ((((expTable size gen).drop 1).take (size - 2)).all (fun x => x != 1)) = true ↔
      ∀ i, 1 ≤ i → i ≤ size - 2 → powerRef size gen i ≠ 1 := by
    rw [List.all_eq_true, List.forall_mem_iff_forall_getElem]
    simp only [List.length_take, List.length_drop, length_expTable, List.getElem_take, List.getElem_drop, getElem_expTable,
      bne_iff_ne]
    constructor
    · intro hall i h1 h2
      have hi := hall (i - 1) (by omega)
      rwa [Nat.add_sub_cancel' h1] at hi
    · intro hall i hi
      exact hall (1 + i) (by omega) (by omega)
  rw [primitiveTable, Bool.and_eq_true, hne, hone]

/-- FCFG builds a field on legal parameters only, with the tables of R154. -/
theorem buildField_eq_some {size gen base : Nat} {F : FieldCfg} (h : buildField size gen base = some F) :
    LegalField size gen base ∧ F.size = BitVec.ofNat 13 size ∧ F.expTab = (expTable size gen).map (BitVec.ofNat 12) ∧
      F.logTab = logTable size (expTable size gen) := by
  rw [buildField] at h
  split at h
  · cases h
  next m hm =>
    obtain ⟨h1, h12, hpow⟩ := sizeLog_eq_some hm
    have hsize : 2 ≤ size := hpow ▸ Nat.pow_le_pow_right (n := 2) (by omega) h1
    split_ifs at h with hgen hbase hprim
    cases h
    exact ⟨⟨⟨m, h1, h12, hpow⟩, by omega, by omega, by omega, (primitiveTable_expTable_iff hsize).1 hprim⟩, rfl, rfl, rfl⟩

/-- A configured field is one that FCFG built. -/
theorem FieldOk.exists_buildField {F : FieldCfg} (h : FieldOk F) (hv : F.valid = true) :
    ∃ size gen base, buildField size gen base = some F := by
  rcases h with rfl | h
  · cases hv
  · exact h

/-! ### The logarithm table -/

@[simp] theorem length_logFrom (i : Nat) (exps : List Nat) (log : List Elem) : (logFrom i exps log).length = log.length := by
  induction exps generalizing i log with
  | nil => rfl
  | cons x rest ih => rw [logFrom, ih, List.length_set]

/-- R154's last loop leaves the entries it does not name. -/
theorem getElem?_logFrom_of_notMem (i p : Nat) (exps : List Nat) (log : List Elem) (h : p ∉ exps.map (· - 1)) :
    (logFrom i exps log)[p]? = log[p]? := by
  induction exps generalizing i log with
  | nil => rfl
  | cons x rest ih =>
    rw [List.map_cons, List.mem_cons, not_or] at h
    obtain ⟨hx, hrest⟩ := h
    rw [logFrom, ih _ _ hrest, List.getElem?_set_ne (Ne.symm hx)]

/-- R154's last loop writes each exponent at its power, where the powers name distinct entries of the table. -/
theorem getElem?_logFrom (i j : Nat) (exps : List Nat) (log : List Elem) (hnd : (exps.map (· - 1)).Nodup)
    (hj : j < exps.length) (hlog : exps[j] - 1 < log.length) :
    (logFrom i exps log)[exps[j] - 1]? = some (BitVec.ofNat 12 (i + j)) := by
  induction exps generalizing i j log with
  | nil => cases hj
  | cons x rest ih =>
    rw [List.map_cons, List.nodup_cons] at hnd
    obtain ⟨hx, hrest⟩ := hnd
    rw [logFrom]
    cases j with
    | zero => exact (getElem?_logFrom_of_notMem _ _ _ _ hx).trans (List.getElem?_set_self hlog)
    | succ j =>
      have hstep := ih (i + 1) j (log.set (x - 1) (BitVec.ofNat 12 i)) hrest (Nat.lt_of_succ_lt_succ hj)
        (by simpa using hlog)
      rwa [Nat.add_right_comm] at hstep

/-- LOG[2^j] is j for every exponent below size - 1 (41_field.md R154). -/
theorem LegalField.getElem?_logTable {size gen base : Nat} (h : LegalField size gen base) {j : Nat} (hj : j < size - 1) :
    (logTable size (expTable size gen))[powerRef size gen j - 1]? = some (BitVec.ofNat 12 j) := by
  have hlen : ((expTable size gen).take (size - 1)).length = size - 1 := by simp
  have hnd : (((expTable size gen).take (size - 1)).map (· - 1)).Nodup := by
    rw [List.nodup_iff_injective_getElem]
    rintro ⟨a, ha⟩ ⟨b, hb⟩ hab
    rw [List.length_map, hlen] at ha hb
    simp only [List.getElem_map, List.getElem_take, getElem_expTable] at hab
    have ha0 := h.powerRef_ne_zero a
    have hb0 := h.powerRef_ne_zero b
    exact Fin.ext ((h.powerRef_inj ha hb).1 (by omega))
  have hlt := h.powerRef_lt j
  have h0 := h.powerRef_ne_zero j
  have hlog := getElem?_logFrom 0 j _ (List.replicate (size - 1) 0) hnd (hj.trans_eq hlen.symm)
  simp only [List.getElem_take, getElem_expTable, List.length_replicate, Nat.zero_add] at hlog
  exact hlog (by omega)

/-! ### The tables of a built field -/

section
variable {size gen base : Nat} {F : FieldCfg} (hF : buildField size gen base = some F)
include hF

theorem legalField_of_build : LegalField size gen base :=
  (buildField_eq_some hF).1

theorem size_of_build : F.size.toNat = size := by
  obtain ⟨hlegal, hsize, -⟩ := buildField_eq_some hF
  have := hlegal.size_mem
  rw [hsize, BitVec.toNat_ofNat, Nat.mod_eq_of_lt (by omega)]

theorem order_of_build : F.order = size - 1 := by
  rw [FieldCfg.order, size_of_build hF]

theorem order_pos_of_build : 0 < F.order := by
  have := (legalField_of_build hF).size_mem
  rw [order_of_build hF]
  omega

theorem isElem_iff_of_build (x : Elem) : IsElem F x ↔ x.toNat < size := by
  rw [IsElem, size_of_build hF]

/-- EXP[i] is the power 2^i (41_field.md R154). -/
theorem expAt_toNat_of_build {i : Nat} (hi : i < size) : (expAt F i).toNat = powerRef size gen i := by
  obtain ⟨hlegal, -, hexp, -⟩ := buildField_eq_some hF
  have := hlegal.size_mem
  have := hlegal.powerRef_lt i
  rw [expAt, hexp, List.getElem?_map, getElem?_expTable hi, Option.map_some, Option.getD_some, BitVec.toNat_ofNat,
    Nat.mod_eq_of_lt (by omega)]

/-- alpha^i is the power 2^i for every exponent (41_field.md R166). -/
theorem alphaPow_toNat_of_build (i : Nat) : (alphaPow F i).toNat = powerRef size gen i := by
  have hpos := order_pos_of_build hF
  have hlt := Nat.mod_lt i hpos
  have horder := order_of_build hF
  rw [alphaPow, expAt_toNat_of_build hF (by omega), horder, (legalField_of_build hF).powerRef_mod]

theorem isElem_alphaPow_of_build (i : Nat) : IsElem F (alphaPow F i) := by
  rw [isElem_iff_of_build hF, alphaPow_toNat_of_build hF]
  exact (legalField_of_build hF).powerRef_lt i

theorem alphaPow_ne_zero_of_build (i : Nat) : alphaPow F i ≠ 0 := by
  rw [Ne, ← BitVec.toNat_inj, alphaPow_toNat_of_build hF]
  exact (legalField_of_build hF).powerRef_ne_zero i

theorem alphaPow_zero_of_build : alphaPow F 0 = 1 :=
  BitVec.eq_of_toNat_eq (alphaPow_toNat_of_build hF 0)

/-- EXP holds one entry more than the powers below the order: EXP[FSIZE-1] is alpha^(FSIZE-1) = 1. -/
theorem expAt_eq_alphaPow_of_build {i : Nat} (hi : i ≤ F.order) : expAt F i = alphaPow F i := by
  have horder := order_of_build hF
  have hpos := order_pos_of_build hF
  exact BitVec.eq_of_toNat_eq ((expAt_toNat_of_build hF (by omega)).trans (alphaPow_toNat_of_build hF i).symm)

theorem alphaPow_order_of_build : alphaPow F F.order = 1 := by
  rw [alphaPow, Nat.mod_self, expAt_eq_alphaPow_of_build hF (Nat.zero_le _), alphaPow_zero_of_build hF]

/-- Every nonzero element is a power of alpha below the order (41_field.md R154). -/
theorem exists_alphaPow_of_build {x : Elem} (hx : IsElem F x) (h0 : x ≠ 0) : ∃ i < F.order, x = alphaPow F i := by
  rw [isElem_iff_of_build hF] at hx
  obtain ⟨i, hi, hxi⟩ := (legalField_of_build hF).exists_powerRef (fun hv => h0 (BitVec.eq_of_toNat_eq hv)) hx
  exact ⟨i, by rwa [order_of_build hF], BitVec.eq_of_toNat_eq (hxi.symm.trans (alphaPow_toNat_of_build hF i).symm)⟩

/-- LOG inverts the powers of alpha (41_field.md R154). -/
theorem logAt_alphaPow_of_build (i : Nat) : logAt F (alphaPow F i) = i % F.order := by
  obtain ⟨hlegal, -, -, hlog⟩ := buildField_eq_some hF
  have horder := order_of_build hF
  have hlt := Nat.mod_lt i (order_pos_of_build hF)
  have hsize := hlegal.size_mem
  rw [logAt, if_neg (alphaPow_ne_zero_of_build hF i), alphaPow_toNat_of_build hF, hlog, ← hlegal.powerRef_mod, ← horder,
    hlegal.getElem?_logTable (by omega), Option.getD_some, BitVec.toNat_ofNat, Nat.mod_eq_of_lt (by omega)]

/-! ### Products of powers of alpha -/

/-- The product of two powers adds their exponents (41_field.md R157). -/
theorem gmul_alphaPow_of_build (i j : Nat) : gmul F (alphaPow F i) (alphaPow F j) = alphaPow F (i + j) := by
  rw [gmul_of_ne F _ _ (alphaPow_ne_zero_of_build hF i) (alphaPow_ne_zero_of_build hF j), logAt_alphaPow_of_build hF,
    logAt_alphaPow_of_build hF, ← Nat.add_mod, alphaPow]

/-- The inverse of a power has the opposite exponent (41_field.md R159). -/
theorem ginv_alphaPow_of_build {i : Nat} (hi : i < F.order) : ginv F (alphaPow F i) = alphaPow F (F.order - i) := by
  rw [ginv, logAt_alphaPow_of_build hF, Nat.mod_eq_of_lt hi, expAt_eq_alphaPow_of_build hF (Nat.sub_le _ _)]

/-- The product of a power and an element is the element doubled that often. -/
theorem gmul_alphaPow_toNat_of_build (i : Nat) {y : Elem} (hy : IsElem F y) :
    (gmul F (alphaPow F i) y).toNat = (doubleStep size gen)^[i] y.toNat := by
  by_cases h0 : y = 0
  · rw [h0, gmul_zero_right]
    exact (doubleStep_iterate_zero size gen i).symm
  · obtain ⟨j, -, rfl⟩ := exists_alphaPow_of_build hF hy h0
    rw [gmul_alphaPow_of_build hF, alphaPow_toNat_of_build hF, alphaPow_toNat_of_build hF, powerRef_add]

/-! ### The laws -/

theorem isElem_xor_of_build {x y : Elem} (hx : IsElem F x) (hy : IsElem F y) : IsElem F (x ^^^ y) := by
  rw [isElem_iff_of_build hF] at hx hy ⊢
  rw [BitVec.toNat_xor]
  exact (legalField_of_build hF).xor_lt hx hy

theorem isElem_gmul_of_build {x y : Elem} (hx : IsElem F x) (hy : IsElem F y) : IsElem F (gmul F x y) := by
  by_cases hx0 : x = 0
  · rwa [hx0, gmul_zero_left, ← hx0]
  by_cases hy0 : y = 0
  · rwa [hy0, gmul_zero_right, ← hy0]
  obtain ⟨i, -, rfl⟩ := exists_alphaPow_of_build hF hx hx0
  obtain ⟨j, -, rfl⟩ := exists_alphaPow_of_build hF hy hy0
  rw [gmul_alphaPow_of_build hF]
  exact isElem_alphaPow_of_build hF _

theorem gmul_assoc_of_build {x y z : Elem} (hx : IsElem F x) (hy : IsElem F y) (hz : IsElem F z) :
    gmul F (gmul F x y) z = gmul F x (gmul F y z) := by
  by_cases hx0 : x = 0
  · simp only [hx0, gmul_zero_left]
  by_cases hy0 : y = 0
  · simp only [hy0, gmul_zero_left, gmul_zero_right]
  by_cases hz0 : z = 0
  · simp only [hz0, gmul_zero_right]
  obtain ⟨i, -, rfl⟩ := exists_alphaPow_of_build hF hx hx0
  obtain ⟨j, -, rfl⟩ := exists_alphaPow_of_build hF hy hy0
  obtain ⟨k, -, rfl⟩ := exists_alphaPow_of_build hF hz hz0
  simp only [gmul_alphaPow_of_build hF, Nat.add_assoc]

theorem gmul_one_of_build {x : Elem} (hx : IsElem F x) : gmul F x 1 = x := by
  by_cases h0 : x = 0
  · rw [h0, gmul_zero_left]
  · obtain ⟨i, -, rfl⟩ := exists_alphaPow_of_build hF hx h0
    rw [← alphaPow_zero_of_build hF, gmul_alphaPow_of_build hF, Nat.add_zero]

/-- Multiplication distributes over addition, because doubling does. -/
theorem gmul_xor_of_build {x y z : Elem} (hx : IsElem F x) (hy : IsElem F y) (hz : IsElem F z) :
    gmul F x (y ^^^ z) = gmul F x y ^^^ gmul F x z := by
  by_cases h0 : x = 0
  · rw [h0, gmul_zero_left, gmul_zero_left, gmul_zero_left]
    exact BitVec.xor_self.symm
  · obtain ⟨i, -, rfl⟩ := exists_alphaPow_of_build hF hx h0
    apply BitVec.eq_of_toNat_eq
    rw [BitVec.toNat_xor, gmul_alphaPow_toNat_of_build hF i (isElem_xor_of_build hF hy hz),
      gmul_alphaPow_toNat_of_build hF i hy, gmul_alphaPow_toNat_of_build hF i hz, BitVec.toNat_xor]
    rw [isElem_iff_of_build hF] at hy hz
    exact (legalField_of_build hF).iterate_xor hy hz i

theorem gmul_ginv_of_build {x : Elem} (hx : IsElem F x) (h0 : x ≠ 0) : gmul F x (ginv F x) = 1 := by
  obtain ⟨i, hi, rfl⟩ := exists_alphaPow_of_build hF hx h0
  rw [ginv_alphaPow_of_build hF hi, gmul_alphaPow_of_build hF, Nat.add_sub_cancel' hi.le, alphaPow_order_of_build hF]

end

/-- Multiplication is commutative whatever the tables hold (41_field.md R157). -/
theorem gmul_comm (F : FieldCfg) (x y : Elem) : gmul F x y = gmul F y x := by
  simp only [gmul, or_comm, Nat.add_comm]

/-- Settles O21: nonzero elements are powers of alpha, whose exponents add in a product, and a product by a power is repeated
doubling, which is additive. -/
theorem fieldLaws : Obligations.FieldLaws := by
  intro F hok hvalid x y z hx hy hz
  obtain ⟨size, gen, base, hF⟩ := hok.exists_buildField hvalid
  exact ⟨BitVec.xor_comm x y, BitVec.xor_assoc x y z, BitVec.xor_zero, isElem_xor_of_build hF hx hy, gmul_comm F x y,
    gmul_assoc_of_build hF hx hy hz, gmul_one_of_build hF hx, isElem_gmul_of_build hF hx hy, gmul_xor_of_build hF hx hy hz,
    gmul_ginv_of_build hF hx⟩

end Sys2Proof.Machine
end

section
/-! PROOF. The outcomes of the Reed-Solomon decoder commands RSEUC and RSDEC and the flags they write (44_rs_decoder.md R262,
R283). -/

namespace Sys2Proof.Machine

/-! ### The parts of a decode -/

/-- What holds of every retired result of the checks and of the recorded fault holds of the state the command ends in. -/
theorem AllOk.of_finish {P : State → Prop} {i : Instr} {s t : State} {r : Except Cause State}
    (hr : AllOk (fun u => P (retire u)) r) (hf : ∀ c, P (takeFault (encode i) c s)) (h : finish i s r = .next t) : P t := by
  rcases (finish_next i s t r).1 h with ⟨u, hu, rfl⟩ | ⟨c, -, rfl⟩
  · exact hr u hu
  · exact hf c

/-- A readable block passes its element checks (20_memory.md R83). -/
theorem ReadableElems.elemBlock_eq {s : State} {a n : Nat} (h : ReadableElems s a n) :
    elemBlock s.field s a n = .ok (blockElems s a n) :=
  (elemWords_ok s.field (Memory.readBlock s.dmem a n) (blockElems s a n)).2 ⟨h.2, rfl⟩

/-- The flag of the syndromes is 1 where every one is 0 (44_rs_decoder.md R251). -/
theorem allZero_iff (ss : List Elem) : allZero ss = true ↔ ∀ v ∈ ss, v = 0 := by
  simp [allZero]

/-- The flag of the syndromes is 0 where one is nonzero (R251). -/
theorem allZero_eq_false_iff (ss : List Elem) : allZero ss = false ↔ ∃ v ∈ ss, v ≠ 0 := by
  simp [allZero]

/-- The solver fails where the constant term of its last t is 0 (44_rs_decoder.md R261). -/
theorem euclid_of_coef_eq_zero {F : FieldCfg} {P : Nat} {Sy : Poly} {e : EucState}
    (he : e = eucLoop F P (max P (deg Sy) + 1) (eucInit P Sy)) (h : coef e.t 0 = 0) : euclid F P Sy = none := by
  subst he
  exact if_pos h

/-- The solver scales its last t and r by the inverse of the constant term of t where that is not 0 (R261). -/
theorem euclid_of_coef_ne_zero {F : FieldCfg} {P : Nat} {Sy : Poly} {e : EucState}
    (he : e = eucLoop F P (max P (deg Sy) + 1) (eucInit P Sy)) (h : coef e.t 0 ≠ 0) :
    euclid F P Sy = some (pscal F e.t (ginv F (coef e.t 0)), pscal F e.r (ginv F (coef e.t 0))) := by
  subst he
  exact if_neg h

/-! ### RSEUC -/

/-- RSEUC retires where its destinations are distinct, a field is configured and P is in range (R255): with both destinations
written and EUCFAIL 0 where the solver succeeds, and else with EUCFAIL 1 alone. -/
theorem exec_rseuc_of_checks {s : State} {qsig qomg qs : QReg} {rp : SReg} (hq : qsig ≠ qomg)
    (hv : s.field.valid = true) (h1 : 1 ≤ (s.sreg rp).toNat) (hP : (s.sreg rp).toNat ≤ s.field.size.toNat - 1) :
    exec (.rseuc qsig qomg qs rp) s = .next (retire ((euclid s.field (s.sreg rp).toNat (s.qreg qs)).elim
      (s.setEucfail true) fun d => ((s.setQ qsig d.1).setQ qomg d.2).setEucfail false)) := by
  have hdest : check (qsig ≠ qomg) .illegalCommand = .ok () := (check_ok _ _).2 hq
  have hfield : needField s = .ok s.field := (needField_ok s _).2 ⟨hv, rfl⟩
  have hparity : check ((s.sreg rp).toNat ≠ 0 ∧ (s.sreg rp).toNat ≤ s.field.order) .operandRange = .ok () :=
    (check_ok _ _).2 ⟨Nat.one_le_iff_ne_zero.1 h1, hP⟩
  simp only [exec, execRseuc, hdest, hfield, hparity, except_ok_bind]
  cases euclid s.field (s.sreg rp).toNat (s.qreg qs) <;> rfl

/-- RSDEC leaves EUCFAIL in each of its three outcomes; it reports a failed solve in DSTAT (R262). -/
theorem exec_rsdec_eucfail {rd raddr rn rp : SReg} {s t : State} (h : exec (.rsdec rd raddr rn rp) s = .next t) :
    t.eucfail = s.eucfail := by
  refine AllOk.of_finish (P := fun u => u.eucfail = s.eucfail) ?_ (by simp) h
  simp only [allOk_bind]
  intro F _ P _ _ _ w _
  split
  · simp
  · split <;> simp

/-- FCFG leaves EUCFAIL, whether it commits a field or none (41_field.md R155). -/
theorem exec_fcfg_eucfail {a b c : SReg} {s t : State} (h : exec (.fcfg a b c) s = .next t) : t.eucfail = s.eucfail := by
  simp only [exec, execFcfg] at h
  split at h <;> exact AllOk.of_finish (P := fun u => u.eucfail = s.eucfail) (by simp) (by simp) h

/-- A command that is no RSEUC leaves EUCFAIL: none of the updates it ends in writes the flag. -/
theorem exec_eucfail_of_ne_rseuc {i : Instr} {s t : State} (hi : mnemonicOf i ≠ "RSEUC") (h : exec i s = .next t) :
    t.eucfail = s.eucfail := by
  cases i
  case rseuc => exact absurd rfl hi
  case fcfg => exact exec_fcfg_eucfail h
  case rsdec => exact exec_rsdec_eucfail h
  case nop | li | lih | mov =>
    cases h
    rfl
  case rdcsr | mslot =>
    refine AllOk.of_finish (P := fun u => u.eucfail = s.eucfail) ?_ (by simp) h
    split <;> simp
  all_goals exact AllOk.of_finish (P := fun u => u.eucfail = s.eucfail) (by simp) (by simp) h

/-- Settles O35: RSEUC retires with the solver's answer, which the constant term of the last t decides, and no other command's
updates write EUCFAIL. -/
theorem rseucWritesEucfail : Obligations.RseucWritesEucfail := by
  refine ⟨fun s qsig qomg qs rp hq hv h1 hP => ⟨_, rfl, fun h0 => ?_, fun h0 => ?_⟩,
    fun _ _ _ => exec_eucfail_of_ne_rseuc⟩
  · rw [exec_rseuc_of_checks hq hv h1 hP, euclid_of_coef_eq_zero rfl h0, Option.elim_none]
  · rw [exec_rseuc_of_checks hq hv h1 hP, euclid_of_coef_ne_zero rfl h0, Option.elim_some]

/-! ### RSDEC -/

/-- RSDEC on a readable word with P in range retires (R280), with one of its three outcomes: no syndrome is nonzero, the solver
fails, or the word is corrected at the zeros of the solver's sigma. -/
theorem exec_rsdec_of_checks {s : State} {rd raddr rn rp : SReg} {w ss : List Elem} (hv : s.field.valid = true)
    (hP : (s.sreg rp).toNat ≤ s.field.size.toNat - 1) (hr : ReadableElems s (s.sreg raddr).toNat (s.sreg rn).toNat)
    (hw : w = blockElems s (s.sreg raddr).toNat (s.sreg rn).toNat) (hss : ss = syndromes s.field w (s.sreg rp).toNat) :
    exec (.rsdec rd raddr rn rp) s = .next (retire (
      if allZero ss then (((s.setSynz true).setDstat .noErrors).setDnfix 0).setS rd 1
      else (euclid s.field (s.sreg rp).toNat (syndromePoly ss)).elim
        ((((s.setSynz false).setDstat .uncorrectable).setDnfix 0).setS rd 0)
        fun d => (((((s.setSynz false).setMem (Memory.writeBlock s.dmem (s.sreg raddr).toNat
          (elemHalves (fixWord s.field d.2 (pzeros s.field d.1) w).1))).setDstat .corrected).setDnfix
          (fixWord s.field d.2 (pzeros s.field d.1) w).2).setS rd 1))) := by
  have hfield : needField s = .ok s.field := (needField_ok s _).2 ⟨hv, rfl⟩
  have hparity : parityOperand s.field (s.sreg rp) = .ok (s.sreg rp).toNat := (parityOperand_ok _ _ _).2 ⟨hP, rfl⟩
  have hblock : checkBlock s (s.sreg raddr).toNat (s.sreg rn).toNat = .ok () := (checkBlock_ok _ _ _).2 hr.1
  simp only [exec, execRsdec, hfield, hparity, hblock, hr.elemBlock_eq, except_ok_bind, ← hw, ← hss]
  cases allZero ss
  · cases euclid s.field (s.sreg rp).toNat (syndromePoly ss) <;> rfl
  · rfl

/-- Settles O39: the three outcomes are the branches of RSDEC's meaning, decided by the syndromes and then by the solver. -/
theorem rsdecOutcomes : Obligations.RsdecOutcomes := by
  intro s rd raddr rn rp w ss hv hP hr hw hss
  rw [exec_rsdec_of_checks hv hP hr hw hss]
  refine ⟨fun hzero => ?_, fun hne hnone => ?_, fun sigma omega hne hsome => ?_⟩
  · rw [(allZero_iff ss).2 hzero, if_pos rfl]
  · rw [(allZero_eq_false_iff ss).2 hne, if_neg Bool.false_ne_true, hnone, Option.elim_none]
  · rw [(allZero_eq_false_iff ss).2 hne, if_neg Bool.false_ne_true, hsome, Option.elim_some]

end Sys2Proof.Machine
end

section
/-! PROOF. The host's width loop (46_mode_encoder.md R360, R361): the width takes at most four values and grows on every repeat, so
the passes left always cover the widths still above it. -/

namespace Sys2Proof.Machine

/-! ### One pass -/

/-- A pass without a fault for which SYMBOL_FOR gives a width repeats at that width when it is larger, and settles otherwise
(R360). -/
theorem widthLoop_succ_of_lookup {lookup : Nat → Option Nat} {rd raddr rn rw : SReg} {w w2 : Nat} {s : State} (passes : Nat)
    (hf : (mencPass rd raddr rn rw w s).faulted = false)
    (hw2 : lookup (mencPass rd raddr rn rw w s).menc.mcost.toNat = some w2) :
    widthLoop lookup rd raddr rn rw (passes + 1) w s =
      if w < w2 then widthLoop lookup rd raddr rn rw passes w2 (mencPass rd raddr rn rw w s)
      else .settled w (mencPass rd raddr rn rw w s) := by
  simp only [widthLoop, hf, hw2, Bool.false_eq_true, if_false, ← not_lt, ite_not]

/-- What a pass can do: fault, find that no symbol fits, settle, or repeat at a strictly larger width of SYMBOL_FOR. -/
theorem widthLoop_succ_cases (lookup : Nat → Option Nat) (rd raddr rn rw : SReg) (passes w : Nat) (s : State) :
    (∃ t, widthLoop lookup rd raddr rn rw (passes + 1) w s = .faulted t) ∨
    (∃ t, widthLoop lookup rd raddr rn rw (passes + 1) w s = .noSymbol t) ∨
    (∃ t, widthLoop lookup rd raddr rn rw (passes + 1) w s = .settled w t) ∨
    (∃ c w2 t, lookup c = some w2 ∧ w < w2 ∧
      widthLoop lookup rd raddr rn rw (passes + 1) w s = widthLoop lookup rd raddr rn rw passes w2 t) := by
  cases hf : (mencPass rd raddr rn rw w s).faulted with
  | true => exact .inl ⟨mencPass rd raddr rn rw w s, by simp only [widthLoop, hf, if_true]⟩
  | false =>
    cases hl : lookup (mencPass rd raddr rn rw w s).menc.mcost.toNat with
    | none => exact .inr (.inl ⟨mencPass rd raddr rn rw w s, by simp only [widthLoop, hf, hl, Bool.false_eq_true, if_false]⟩)
    | some w2 =>
      have hpass := widthLoop_succ_of_lookup passes hf hl
      by_cases hlt : w < w2
      · exact .inr (.inr (.inr ⟨_, w2, _, hl, hlt, hpass.trans (if_pos hlt)⟩))
      · exact .inr (.inr (.inl ⟨_, hpass.trans (if_neg hlt)⟩))

/-! ### The loop -/

/-- The loop came to an end of its own, and if it settled, then on a width of the set of R360. -/
def WidthResult.Converged : WidthResult → Prop
  | .settled w _ => w ∈ [6, 8, 10, 12]
  | .noSymbol _ => True
  | .faulted _ => True
  | .outOfPasses _ => False

/-- The widths lie 2 apart and end at 12, so a loop at width `w` with at least (14 - w) / 2 passes left converges. -/
theorem widthLoop_converged {lookup : Nat → Option Nat} (hlookup : ∀ c w, lookup c = some w → w ∈ [6, 8, 10, 12])
    (rd raddr rn rw : SReg) {passes w : Nat} (s : State) (hw : w ∈ [6, 8, 10, 12]) (hpasses : 14 ≤ w + 2 * passes) :
    (widthLoop lookup rd raddr rn rw passes w s).Converged := by
  induction passes generalizing w s with
  | zero =>
    have hmax : w ≤ 12 := (by decide : ∀ v ∈ [6, 8, 10, 12], v ≤ 12) w hw
    omega
  | succ passes ih =>
    obtain ⟨t, ht⟩ | ⟨t, ht⟩ | ⟨t, ht⟩ | ⟨c, w2, t, hl, hlt, ht⟩ :=
      widthLoop_succ_cases lookup rd raddr rn rw passes w s <;> rw [ht]
    · trivial
    · trivial
    · exact hw
    · have hw2 : w2 ∈ [6, 8, 10, 12] := hlookup c w2 hl
      have hgap : w + 2 ≤ w2 :=
        (by decide : ∀ v ∈ [6, 8, 10, 12], ∀ v2 ∈ [6, 8, 10, 12], v < v2 → v + 2 ≤ v2) w hw w2 hw2 hlt
      exact ih t hw2 (by omega)

/-- Settles O46: from width 6 four passes are enough to converge, and a pass repeats as SYMBOL_FOR's width says. -/
theorem widthLoopPasses : Obligations.WidthLoopPasses := by
  intro lookup rd raddr rn rw s hlookup
  have hconv : (widthLoop lookup rd raddr rn rw 4 6 s).Converged :=
    widthLoop_converged hlookup rd raddr rn rw s (by decide) (by decide)
  refine ⟨fun t ht => ?_, fun w t ht => ?_, fun passes w w2 t ht hf hw2 => ?_⟩
  · rwa [ht] at hconv
  · rwa [ht] at hconv
  · subst ht
    exact widthLoop_succ_of_lookup passes hf hw2

end Sys2Proof.Machine
end

section
/-! PROOF. A legal word is the word of the command it decodes to (30_encoding.md R110 to R114), so that FCMD holds the faulting
word. -/

namespace Sys2Proof.Machine

/-! ### Operand fields -/

/-- A field of kind S names the register of its number (30_encoding.md R103). -/
theorem val_sreg {n : Nat} (h : n < 16) : (Sys2Proof.sreg n).val = n :=
  Nat.mod_eq_of_lt h

/-- A field of kind Q below 8 names the register of its number (30_encoding.md R103). -/
theorem val_qreg {n : Nat} (h : n < 8) : (Sys2Proof.qreg n).val = n :=
  Nat.mod_eq_of_lt h

theorem field_lt (w : Word) (lo width : Nat) : field w lo width < 2 ^ width :=
  Nat.mod_lt _ (Nat.two_pow_pos width)

/-- A word is put together from its fields of format R (30_encoding.md R101). -/
theorem packR_fields (w : Word) :
    packR (field w 26 6) (field w 22 4) (field w 18 4) (field w 14 4) (field w 10 4) (field w 0 10) = w := by
  apply BitVec.eq_of_toNat_eq
  simp only [packR, field, BitVec.toNat_ofNat]
  omega

/-- A word with field 21:16 zero is put together from its fields of format I (30_encoding.md R102). -/
theorem packI_fields {w : Word} (hz : field w 16 6 = 0) : packI (field w 26 6) (field w 22 4) (field w 0 16) = w := by
  apply BitVec.eq_of_toNat_eq
  simp only [packI, field, BitVec.toNat_ofNat] at hz ⊢
  omega

/-! ### The rows -/

/-- A row answers its command, and only where its fixed bits are as they must be (30_encoding.md R112 (2)). -/
theorem need_eq_ok {fixed : Prop} [Decidable fixed] {i j : Instr} : need fixed i = .ok j ↔ fixed ∧ i = j := by
  unfold need
  split <;> simp_all

/-- The command a row answers encodes, in the row's format, to the fields it was read from. -/
theorem encode_of_decodeFields {op a b c d imm z imm16 : Nat} {i : Instr} (ha : a < 16) (hb : b < 16) (hc : c < 16)
    (hd : d < 16) (himm : imm < 1024) (himm16 : imm16 < 65536) (h : decodeFields op a b c d imm z imm16 = .ok i) :
    encode i = packR op a b c d imm ∨ z = 0 ∧ encode i = packI op a imm16 := by
  unfold decodeFields at h
  split at h
  case h_2 | h_3 => -- LI and LIH, the rows of format I
    obtain ⟨hz, rfl⟩ := need_eq_ok.1 h
    simp [encode, val_sreg, hz, ha, Nat.mod_eq_of_lt himm16]
  case h_7 => -- RDCSR, whose operand fills imm10
    obtain ⟨⟨rfl, rfl, rfl⟩, rfl⟩ := need_eq_ok.1 h
    simp [encode, val_sreg, ha, Nat.mod_eq_of_lt himm]
  case h_38 => -- BAINIT, whose operand is bit 0 of imm10
    obtain ⟨⟨rfl, rfl, rfl, hsd⟩, rfl⟩ := need_eq_ok.1 h
    have : (imm == 1).toNat = imm := by
      interval_cases imm <;> rfl
    simp [encode, val_sreg, hb, this]
  case h_44 => cases h -- the reserved opcodes
  case h_34 => -- RSEUC, with its rejection of a = b
    split at h
    · cases h
    · obtain ⟨hf, rfl⟩ := need_eq_ok.1 h
      simp [encode, val_sreg, val_qreg, *]
  all_goals
    obtain ⟨hf, rfl⟩ := need_eq_ok.1 h
    simp [encode, val_sreg, val_qreg, *]

/-- A legal word is the word of its command: the mask of a row tests every bit that is no operand bit (30_encoding.md R114). -/
theorem encode_of_decode {w : Word} {i : Instr} (h : decode w = .ok i) : encode i = w := by
  obtain hR | ⟨hz, hI⟩ := encode_of_decodeFields (field_lt w 22 4) (field_lt w 18 4) (field_lt w 14 4) (field_lt w 10 4)
    (field_lt w 0 10) (field_lt w 0 16) h
  · exact hR.trans (packR_fields w)
  · exact hI.trans (packI_fields hz)

end Sys2Proof.Machine
end

section
/-! PROOF. Which check of a command fails and what it leaves (60_exceptions.md R400 to R402, R410): the meaning of every command
walks the list of its checks in order, and a command that fails one leaves the state it began in, FCFG apart. -/

namespace Sys2Proof.Machine

/-! ### When the operations that check something fail -/

/-- The size check of R151 finds the logarithm of a legal size. -/
theorem sizeLog_ne_none {m : Nat} (h1 : 1 ≤ m) (h12 : m ≤ 12) : sizeLog (2 ^ m) ≠ none := by
  intro h
  have hmem : m ∈ List.range' 1 Config.fieldMaxM := List.mem_range'_1.2 ⟨h1, Nat.lt_succ_of_le h12⟩
  simpa using List.find?_eq_none.1 h m hmem

/-- FCFG builds a field on all legal parameters (41_field.md R151 to R154). -/
theorem LegalField.buildField_ne_none {size gen base : Nat} (h : LegalField size gen base) :
    buildField size gen base ≠ none := by
  have hsize := h.size_mem
  obtain ⟨⟨m, h1, h12, hm⟩, hlo, hhi, hbase, hprim⟩ := h
  cases hlog : sizeLog size with
  | none => exact absurd (hm ▸ hlog) (sizeLog_ne_none h1 h12)
  | some k =>
    simp [buildField, hlog, (primitiveTable_expTable_iff hsize.1).2 hprim, show ¬ (gen < size ∨ 2 * size ≤ gen) by omega,
      show ¬ size - 2 < base by omega]

/-- The CSR numbers of the map are 0x000 to 0x015 (10_state.md R38). -/
theorem csrInCommand_eq_none_iff (s : State) (n : Nat) : csrInCommand s n = none ↔ ¬ n ≤ 0x015 := by
  constructor
  · intro h hn
    interval_cases n <;> cases h
  · intro hn
    unfold csrInCommand csrValue
    split
    case h_23 => rfl -- the reserved numbers
    all_goals omega

/-- A test that ends with the cause `c` where its condition fails. -/
theorem ite_eq_error_iff {α : Type} {p : Prop} [Decidable p] {a : α} {c d : Cause} :
    (if p then (.ok a : Except Cause α) else .error c) = .error d ↔ ¬ p ∧ d = c := by
  split
  next h => exact ⟨nofun, fun e => absurd h e.1⟩
  next h => exact ⟨fun e => ⟨h, (Except.error.inj e).symm⟩, fun e => e.2 ▸ rfl⟩

/-- The slots of MSLOT are numbered 0 to 5 (46_mode_encoder.md R354). -/
theorem getSlot_eq_none_iff (slots : Vector (Option Word) 6) (k : Nat) : slots[k]? = none ↔ ¬ k ≤ 5 := by
  rw [Vector.getElem?_eq_none_iff, Nat.not_le, Nat.succ_le_iff]

/-- A polynomial is monic where its first coefficient is 1 (43_rs_encoder.md R234). -/
theorem lead_eq_one_iff (p : Poly) : lead p = 1 ↔ p.head? = some 1 := by
  cases p <;> simp [lead]

theorem textWords_error (ws : List Half) (c : Cause) :
    textWords ws = .error c ↔ (¬ ∀ v ∈ ws, v.toNat < 256) ∧ c = .operandRange := by
  simp only [textWords, ite_eq_error_iff, List.all_eq_true, decide_eq_true_eq]

/-- The bits of a number, most significant first, are the model's (00_scope.md R14). -/
theorem natBits_eq_msbFirst (n v : Nat) : natBits n v = msbFirst n v := by
  induction n with
  | zero => rfl
  | succ n ih => simp [natBits, ih, msbFirst, List.range_succ]

/-- Storing words fails exactly where BS has no room for them (45_bitappender.md R292). -/
theorem store_error_iff (b : BitStream) (p : Packer) (ws : List Half) (c : Cause) :
    b.store p ws = .error c ↔ ¬ (ws = [] ∨ b.words.length + ws.length ≤ 4096) ∧ c = .bsOverflow :=
  ite_eq_error_iff

/-- Appending bits fails exactly where BS has no room for the words they complete (45_bitappender.md R293). -/
theorem feed_error_iff (b : BitStream) (bits : List Bool) (c : Cause) :
    b.feed bits = .error c ↔
      (¬ ∀ p ws, b.packer.run bits = (p, ws) → ws = [] ∨ b.words.length + ws.length ≤ 4096) ∧ c = .bsOverflow := by
  simp [BitStream.feed, store_error_iff, Prod.ext_iff]

/-- Padding fails exactly where a partial word finds BS full (45_bitappender.md R297). -/
theorem pad_error_iff (b : BitStream) (c : Cause) :
    b.pad = .error c ↔ ¬ (b.packer.bacurlen = 0 ∨ b.words.length < 4096) ∧ c = .bsOverflow := by
  by_cases h : b.packer.bacurlen = 0
  · have hpad : b.pad = .ok b := if_pos h
    simp [hpad, h]
  · have hpad : b.pad = b.store _ [_] := if_neg h
    rw [hpad, store_error_iff, or_iff_right h, or_iff_right (List.cons_ne_nil _ _), List.length_singleton, Nat.succ_le_iff]

/-! ### Sequences of checks -/

/-- The sequence of checks `r` of a command begun in `s` ends as the list `l` says: with a result, which leaves the control
state, where every check holds, and else with the cause of the first that fails (60_exceptions.md R402). -/
def Guarded (s : State) (l : List (Prop × Cause)) : Except Cause State → Prop
  | .ok u => FirstFailing l none ∧ u.control = s.control
  | .error c => FirstFailing l (some c)

section
variable {s : State} {p q : Prop} {c : Cause} {rest : List (Prop × Cause)}

/-- The end of the checks. -/
theorem guarded_ok {u : State} (h : u.control = s.control) : Guarded s [] (.ok u) :=
  ⟨rfl, h⟩

/-- The failure of the first check. -/
theorem guarded_error (hp : ¬ p) : Guarded s ((p, c) :: rest) (.error c) :=
  .inr ⟨hp, rfl⟩

/-- A first check that holds leaves the end to the others. -/
theorem guarded_cons {r : Except Cause State} (hp : p) (h : Guarded s rest r) : Guarded s ((p, c) :: rest) r := by
  cases r with
  | ok u => exact ⟨.inl ⟨hp, h.1⟩, h.2⟩
  | error d => exact .inl ⟨hp, h⟩

/-- Two checks of one cause are one check of both conditions. -/
theorem guarded_and_iff {r : Except Cause State} :
    Guarded s ((p ∧ q, c) :: rest) r ↔ Guarded s ((p, c) :: (q, c) :: rest) r := by
  cases r <;> simp only [Guarded, FirstFailing] <;> tauto

/-- A first operation that fails exactly where the first check does, with its cause. -/
theorem guarded_bind {α : Type} {x : Except Cause α} {f : α → Except Cause State}
    (hx : ∀ d, x = .error d ↔ ¬ p ∧ d = c) (h : ∀ a, x = .ok a → Guarded s rest (f a)) :
    Guarded s ((p, c) :: rest) (x >>= f) := by
  cases x with
  | ok a =>
    have hp : p := by_contra fun hp => nomatch (hx c).2 ⟨hp, rfl⟩
    exact guarded_cons hp (h a rfl)
  | error d =>
    obtain ⟨hp, rfl⟩ := (hx d).1 rfl
    exact guarded_error hp

/-! Each operand check of the model against its entry of the list. -/

theorem guarded_check [Decidable q] {f : Unit → Except Cause State} (hq : q ↔ p) (h : Guarded s rest (f ())) :
    Guarded s ((p, c) :: rest) (check q c >>= f) :=
  guarded_bind (fun d => by rw [check_error, hq]) fun _ _ => h

theorem guarded_needField {f : FieldCfg → Except Cause State} (h : Guarded s rest (f s.field)) :
    Guarded s (fieldCheck s :: rest) (needField s >>= f) := by
  refine guarded_bind (fun d => by rw [needField_error, Bool.not_eq_true]) fun F hF => ?_
  obtain ⟨-, rfl⟩ := (needField_ok s F).1 hF
  exact h

theorem guarded_elemOperand {r : SReg} {f : Elem → Except Cause State} (h : Guarded s rest (f (elemOf (s.sreg r)))) :
    Guarded s (elemCheck s r :: rest) (elemOperand s.field (s.sreg r) >>= f) := by
  refine guarded_bind (fun d => by rw [elemOperand_error, Nat.not_lt]) fun x hx => ?_
  obtain ⟨-, rfl⟩ := (elemOperand_ok _ _ x).1 hx
  exact h

theorem guarded_nonzeroElem {x : Elem} {f : Elem → Except Cause State} (h : Guarded s rest (f x)) :
    Guarded s ((x ≠ 0, .zeroInverse) :: rest) (nonzeroElem x >>= f) := by
  refine guarded_bind (fun d => by rw [nonzeroElem_error, not_not]) fun y hy => ?_
  obtain ⟨-, rfl⟩ := (nonzeroElem_ok x y).1 hy
  exact h

theorem guarded_parityOperand {r : SReg} {f : Nat → Except Cause State} (h : Guarded s rest (f (s.sreg r).toNat)) :
    Guarded s (parityCheck s r :: rest) (parityOperand s.field (s.sreg r) >>= f) := by
  refine guarded_bind (fun d => by rw [parityOperand_error, FieldCfg.order, Nat.not_le]) fun P hP => ?_
  obtain ⟨-, rfl⟩ := (parityOperand_ok _ _ P).1 hP
  exact h

theorem guarded_addrOperand {r : SReg} {f : Nat → Except Cause State} (h : Guarded s rest (f (s.sreg r).toNat)) :
    Guarded s (((s.sreg r).toNat < s.cfg.dmemWords, .memRange) :: rest) (addrOperand s (s.sreg r) >>= f) := by
  refine guarded_bind (fun d => by rw [addrOperand_error, Nat.not_lt]) fun a ha => ?_
  obtain ⟨-, rfl⟩ := (addrOperand_ok s _ a).1 ha
  exact h

theorem guarded_checkBlock {r : SReg} {n : Nat} {f : Unit → Except Cause State} (h : Guarded s rest (f ())) :
    Guarded s (blockCheck s r n :: rest) (checkBlock s (s.sreg r).toNat n >>= f) :=
  guarded_bind (fun d => checkBlock_error s _ n d) fun _ _ => h

theorem guarded_elemBlock {r : SReg} {n : Nat} {f : List Elem → Except Cause State} (h : ∀ xs, Guarded s rest (f xs)) :
    Guarded s (wordsCheck s r n s.field.size.toNat :: rest) (elemBlock s.field s (s.sreg r).toNat n >>= f) :=
  guarded_bind (fun d => by simp [elemBlock, elemWords_error]) fun xs _ => h xs

theorem guarded_textWords {r : SReg} {n : Nat} {f : List Nat → Except Cause State}
    (h : Guarded s rest (f ((Memory.readBlock s.dmem (s.sreg r).toNat n).map (fun v => v.toNat)))) :
    Guarded s (wordsCheck s r n 256 :: rest) (textWords (Memory.readBlock s.dmem (s.sreg r).toNat n) >>= f) := by
  refine guarded_bind (fun d => textWords_error _ d) fun t ht => ?_
  obtain ⟨-, rfl⟩ := (textWords_ok _ t).1 ht
  exact h

theorem guarded_feed {b : BitStream} {bits : List Bool} {f : BitStream → Except Cause State}
    (h : ∀ b', Guarded s rest (f b')) :
    Guarded s ((∀ p ws, b.packer.run bits = (p, ws) → ws = [] ∨ b.words.length + ws.length ≤ 4096, .bsOverflow) :: rest)
      (b.feed bits >>= f) :=
  guarded_bind (feed_error_iff b bits) fun b' _ => h b'

theorem guarded_pad {b : BitStream} {f : BitStream → Except Cause State} (h : ∀ b', Guarded s rest (f b')) :
    Guarded s ((b.packer.bacurlen = 0 ∨ b.words.length < 4096, .bsOverflow) :: rest) (b.pad >>= f) :=
  guarded_bind (pad_error_iff b) fun b' _ => h b'

/-- Feeding a new stream and then padding it fails where either has no room, one check for both (46_mode_encoder.md R350). -/
theorem guarded_feed_pad {p0 : Packer} {bits : List Bool} {f : BitStream → BitStream → Except Cause State}
    (h : ∀ b b', Guarded s rest (f b b')) :
    Guarded s ((∀ p ws, p0.run bits = (p, ws) → ws.length ≤ 4096 ∧ (p.bacurlen = 0 ∨ ws.length < 4096), .bsOverflow) :: rest)
      ((⟨p0, []⟩ : BitStream).feed bits >>= fun b => b.pad >>= f b) := by
  have hsplit : (∀ p ws, p0.run bits = (p, ws) → ws.length ≤ 4096 ∧ (p.bacurlen = 0 ∨ ws.length < 4096)) ↔
      (∀ p ws, p0.run bits = (p, ws) → ws = [] ∨ 0 + ws.length ≤ 4096) ∧
        ((p0.run bits).1.bacurlen = 0 ∨ (p0.run bits).2.length < 4096) := by
    obtain ⟨p, ws⟩ := p0.run bits
    cases ws <;> simp
  rw [hsplit, guarded_and_iff]
  refine guarded_bind (feed_error_iff ⟨p0, []⟩ bits) fun b hb => ?_
  obtain ⟨-, rfl⟩ := (store_ok _ b _ _).1 hb
  exact guarded_pad (h _)

end

/-! ### Commands -/

/-- What a command that faults leaves but for the recording of its fault: the state it began in, but no field after an FCFG
(60_exceptions.md R410, 41_field.md R155). -/
def leftByFault (i : Instr) (s : State) : State :=
  match i with
  | .fcfg _ _ _ => commitField FieldCfg.none s
  | _ => s

/-- Every command is `finish` of a sequence of checks, the checks of its rule in their order. -/
theorem exec_guarded (i : Instr) (s : State) :
    ∃ r, exec i s = finish i (leftByFault i s) r ∧ Guarded s (checksOf i s) r := by
  cases i
  case nop | li | lih | mov => exact ⟨.ok _, rfl, guarded_ok rfl⟩
  case ldw | stw => exact ⟨_, rfl, guarded_addrOperand (guarded_ok rfl)⟩
  case rdcsr rd n =>
    refine ⟨_, rfl, ?_⟩
    have hn := csrInCommand_eq_none_iff s n.toNat
    cases hv : csrInCommand s n.toNat with
    | none => exact guarded_error (hn.1 hv)
    | some v => exact guarded_cons (by simpa [hv] using hn) (guarded_ok rfl)
  case fcfg rsize rgen rbase =>
    cases hF : buildField (s.sreg rsize).toNat (s.sreg rgen).toNat (s.sreg rbase).toNat with
    | none =>
      exact ⟨.error .configError, by simp only [exec, execFcfg, hF]; rfl,
        guarded_error fun h => h.buildField_ne_none hF⟩
    | some F =>
      exact ⟨.ok (commitField F s), by simp only [exec, execFcfg, hF]; rfl,
        guarded_cons (buildField_eq_some hF).1 (guarded_ok (control_commitField s F))⟩
  case gadd | gmul =>
    exact ⟨_, rfl, guarded_needField (guarded_elemOperand (guarded_elemOperand (guarded_ok rfl)))⟩
  case ginv | glog =>
    exact ⟨_, rfl, guarded_needField (guarded_elemOperand (guarded_nonzeroElem (guarded_ok rfl)))⟩
  case gdiv =>
    exact ⟨_, rfl, guarded_needField (guarded_elemOperand (guarded_elemOperand (guarded_nonzeroElem (guarded_ok rfl))))⟩
  case gexp | pzero | pone | padd | pdeg | plead | pconst | pcoef | pcopy | pzeros =>
    exact ⟨_, rfl, guarded_needField (guarded_ok rfl)⟩
  case pmono => exact ⟨_, rfl, guarded_needField (guarded_elemOperand (guarded_check Iff.rfl (guarded_ok rfl)))⟩
  case pmul qd qx qy =>
    have hlen : ((s.qreg qx = [0] ∨ s.qreg qy = [0]) ∨ (s.qreg qx).length + (s.qreg qy).length - 1 ≤ Config.polyMaxLen) ↔
        s.qreg qx = [0] ∨ s.qreg qy = [0] ∨ (s.qreg qx).length + (s.qreg qy).length ≤ 4097 := by
      rw [or_assoc, Config.polyMaxLen, Nat.sub_le_iff_le_add]
    exact ⟨_, rfl, guarded_needField (guarded_check hlen (guarded_ok rfl))⟩
  case pscal | peval => exact ⟨_, rfl, guarded_needField (guarded_elemOperand (guarded_ok rfl))⟩
  case pshift => exact ⟨_, rfl, guarded_needField (guarded_check Iff.rfl (guarded_ok rfl))⟩
  case pld =>
    exact ⟨_, rfl, guarded_needField (guarded_check Iff.rfl (guarded_checkBlock (guarded_elemBlock fun _ => guarded_ok rfl)))⟩
  case pst | rbst => exact ⟨_, rfl, guarded_needField (guarded_checkBlock (guarded_ok rfl))⟩
  case rsgen => exact ⟨_, rfl, guarded_needField (guarded_parityOperand (guarded_ok rfl))⟩
  case rsenc qg rmsg rl rdst =>
    exact ⟨_, rfl, guarded_needField (guarded_check (lead_eq_one_iff _) (guarded_checkBlock (guarded_checkBlock
      (guarded_elemBlock fun _ => guarded_ok rfl))))⟩
  case rssyn =>
    exact ⟨_, rfl, guarded_needField (guarded_parityOperand (guarded_checkBlock (guarded_elemBlock fun _ => guarded_ok rfl)))⟩
  case rseuc qsig qomg qs rp =>
    have hparity : ((s.sreg rp).toNat ≠ 0 ∧ (s.sreg rp).toNat ≤ s.field.order) ↔
        s.sreg rp ≠ 0 ∧ (s.sreg rp).toNat ≤ s.field.size.toNat - 1 :=
      and_congr_left fun _ => BitVec.toNat_ne_iff_ne (y := 0)
    refine ⟨_, rfl, guarded_check Iff.rfl (guarded_needField (guarded_and_iff.1 (guarded_check hparity ?_)))⟩
    split <;> exact guarded_ok rfl
  case rsfix => exact ⟨_, rfl, guarded_needField (guarded_checkBlock (guarded_elemBlock fun _ => guarded_ok rfl))⟩
  case rsdec =>
    refine ⟨_, rfl, guarded_needField (guarded_parityOperand (guarded_checkBlock (guarded_elemBlock fun w => ?_)))⟩
    dsimp only
    split
    · exact guarded_ok (by simp)
    · split <;> exact guarded_ok (by simp)
  case bainit => exact ⟨_, rfl, guarded_check Iff.rfl (guarded_ok rfl)⟩
  case baapp rv rn =>
    refine ⟨_, rfl, guarded_check Iff.rfl (guarded_check Iff.rfl ?_)⟩
    rw [natBits_eq_msbFirst]
    exact guarded_feed fun _ => guarded_ok rfl
  case bapad => exact ⟨_, rfl, guarded_check Iff.rfl (guarded_pad fun _ => guarded_ok rfl)⟩
  case bast => exact ⟨_, rfl, guarded_checkBlock (guarded_ok rfl)⟩
  case menc rd raddr rn rw =>
    have hwidth : ((s.sreg rw).toNat = 6 ∨ (s.sreg rw).toNat = 8 ∨ (s.sreg rw).toNat = 10 ∨ (s.sreg rw).toNat = 12) ↔
        (s.sreg rw).toNat ∈ [6, 8, 10, 12] := by
      simp
    exact ⟨_, rfl, guarded_check hwidth (guarded_check Iff.rfl (guarded_checkBlock (guarded_textWords
      (guarded_feed_pad fun _ _ => guarded_ok rfl))))⟩
  case mslot rd rm =>
    refine ⟨_, rfl, ?_⟩
    have hm := getSlot_eq_none_iff s.menc.mslots (s.sreg rm).toNat
    cases hv : s.menc.mslots[(s.sreg rm).toNat]? with
    | none => exact guarded_error (hm.1 hv)
    | some v => exact guarded_cons (by simpa [hv] using hm) (guarded_ok rfl)

end Sys2Proof.Machine
end

section
/-! PROOF. Fault recording and what a fault leaves (60_exceptions.md R410, R411), and the writes of CTRL that end it (R414,
70_reset_and_hazards.md R452). -/

namespace Sys2Proof.Machine

/-! ### The words that fault -/

/-- The model's codes are those of R401. -/
theorem causeCode_eq_faultCode (c : Cause) : causeCode c = faultCode c := by
  cases c <;> rfl

/-- FCFG is the one command whose fault leaves more than its recording (R410). -/
theorem leftByFault_of_ne_fcfg {i : Instr} (hi : ∀ a b c, i ≠ .fcfg a b c) (s : State) : leftByFault i s = s := by
  cases i
  case fcfg a b c => exact absurd rfl (hi a b c)
  all_goals rfl

theorem control_leftByFault (i : Instr) (s : State) : (leftByFault i s).control = s.control := by
  cases i <;> rfl

/-- A command begun fault-free that ends FAULTED failed a check of its rule, and leaves what R410 says with the recording of the
first that failed. -/
theorem exec_faulted {i : Instr} {s t : State} (hs : s.faulted = false) (h : exec i s = .next t) (ht : t.faulted = true) :
    ∃ c, FirstFailing (checksOf i s) (some c) ∧ t = takeFault (encode i) c (leftByFault i s) := by
  obtain ⟨r, hr, hg⟩ := exec_guarded i s
  rw [hr, finish_next] at h
  obtain ⟨u, rfl, rfl⟩ | ⟨c, rfl, rfl⟩ := h
  · have hu : u.faulted = s.faulted := congrArg Control.faulted hg.2
    rw [retire_faulted, hu, hs] at ht
    cases ht
  · exact ⟨c, hg, rfl⟩

/-- A word run fault-free that ends FAULTED is a command that failed a check, or no command; FCMD is the word itself. -/
theorem runWord_faulted {w : Word} {s t : State} (hs : s.faulted = false) (h : runWord w s = .next t)
    (ht : t.faulted = true) :
    (∃ i c, decode w = .ok i ∧ FirstFailing (checksOf i s) (some c) ∧ t = takeFault w c (leftByFault i s)) ∨
    (∃ e, decode w = .error e ∧ t = takeFault w .illegalCommand s) := by
  obtain ⟨i, hi, hrun⟩ | ⟨e, he, hrun⟩ := runWord_cases w s
  · obtain ⟨c, hc, rfl⟩ := exec_faulted hs (hrun.symm.trans h) ht
    exact .inl ⟨i, c, hi, hc, by rw [encode_of_decode hi]⟩
  · exact .inr ⟨e, he, by simpa using (hrun.symm.trans h).symm⟩

/-- Whatever the word, the control state after a fault is the one before it with the recording. -/
theorem runWord_faulted_control {w : Word} {s t : State} (hs : s.faulted = false) (h : runWord w s = .next t)
    (ht : t.faulted = true) : ∃ c u, u.control = s.control ∧ t = takeFault w c u := by
  obtain ⟨i, c, -, -, rfl⟩ | ⟨e, -, rfl⟩ := runWord_faulted hs h ht
  · exact ⟨c, _, control_leftByFault i s, rfl⟩
  · exact ⟨.illegalCommand, s, rfl, rfl⟩

/-! ### A FAULTED core -/

theorem executor_of_faulted {s : State} (h : s.faulted = true) : s.executor = .faulted :=
  if_pos h

/-- Bits 0 and 1 of STATUS are BUSY and FAULT (10_state.md R40). -/
theorem statusWord_bits (s : State) (busy fault : Bool) :
    (statusWord s busy fault).getLsbD 0 = busy ∧ (statusWord s busy fault).getLsbD 1 = fault := by
  simp only [statusWord, BitVec.getLsbD_ofNat, Nat.testBit_eq_decide_div_mod_eq, Nat.reduceLT, decide_true, Bool.true_and]
  cases busy <;> cases fault <;> simp <;> omega

/-- The host reads STATUS with the executor's state in BUSY and FAULT (10_state.md R40). -/
theorem csrFromHost_status (s : State) :
    csrFromHost s 0x001 = some (statusWord s (s.executor == .busy) (s.executor == .faulted)) := rfl

/-- An executor that is not BUSY waits where no host operation can complete (70_reset_and_hazards.md R463). -/
theorem step_of_hostReady_none {s : State} (hb : s.executor ≠ .busy) (h : hostReady s = none) : step s = .next s := by
  simp [step, nextStep, hb, h]

/-- An executor that is not BUSY leaves the step to the host operation that can complete. -/
theorem step_of_hostReady_some {s : State} {op : HostOp} {left : List HostOp} (hb : s.executor ≠ .busy)
    (h : hostReady s = some (op, left)) : step s = .next (hostStep op left s) := by
  simp [step, nextStep, hb, h]

/-- Settles O10: a fault comes from a failed check or from no command, and the FAULTED executor is not BUSY. -/
theorem faultRecording : Obligations.FaultRecording := by
  intro s t w hs h ht
  have hexec := executor_of_faulted ht
  have hbusy : t.executor ≠ .busy := by simp [hexec]
  have hbits := statusWord_bits t (t.executor == .busy) (t.executor == .faulted)
  rw [hexec] at hbits
  obtain ⟨c, u, hu, htu⟩ := runWord_faulted_control hs h ht
  have hfifo : u.fifo = s.fifo := congrArg Control.fifo hu
  have hcnt : u.cmdcnt = s.cmdcnt := congrArg Control.cmdcnt hu
  refine ⟨fun i hi => ?_, fun e he => ?_, by rw [htu, takeFault_fcmd], hexec,
    ⟨_, csrFromHost_status t, by rw [hexec]; exact hbits⟩, by rw [htu, takeFault_fifo, hfifo],
    step_of_hostReady_none hbusy, fun _ _ => step_of_hostReady_some hbusy, by rw [htu, takeFault_cmdcnt, hcnt]⟩
  · obtain ⟨j, d, hj, hd, rfl⟩ | ⟨e, he, -⟩ := runWord_faulted hs h ht
    · cases hi.symm.trans hj
      exact ⟨d, hd, causeCode_eq_faultCode d⟩
    · cases hi.symm.trans he
  · rw [runWord_of_error he] at h
    cases h
    rfl

/-- Settles O11: the state a fault leaves is the one the command began in, or for FCFG the one without a field. -/
theorem faultHasNoOtherEffect : Obligations.FaultHasNoOtherEffect := by
  intro s t w hs h ht
  obtain ⟨i, c, hi, hc, rfl⟩ | ⟨e, he, rfl⟩ := runWord_faulted hs h ht
  · refine ⟨?_, fun hne => ?_⟩
    · rintro ⟨x, y, z, hfcfg⟩
      cases hi.symm.trans hfcfg
      obtain ⟨-, ⟨⟩⟩ | ⟨-, hconfig⟩ := hc
      rw [Option.some.inj hconfig]
      rfl
    · rw [leftByFault_of_ne_fcfg fun x y z hxyz => hne x y z (hxyz ▸ hi)]
      rfl
  · refine ⟨?_, fun _ => rfl⟩
    rintro ⟨x, y, z, hfcfg⟩
    cases he.symm.trans hfcfg

/-! ### Writes of CTRL -/

section
variable {v : Word} {s : State}

/-- SRESET performs the soft reset, whatever CLRFAULT is (70_reset_and_hazards.md R452). -/
theorem writeCtrl_of_sreset (hr : v.getLsbD 1 = true) : writeCtrl v s = softReset s :=
  if_pos hr

/-- CLRFAULT without SRESET clears the fault (60_exceptions.md R414). -/
theorem writeCtrl_of_clrfault (hr : v.getLsbD 1 = false) (hc : v.getLsbD 0 = true) : writeCtrl v s = clearFault s := by
  rw [writeCtrl, hr, hc, if_neg Bool.false_ne_true, if_pos rfl]

/-- A write without either bit has no effect (10_state.md R51). -/
theorem writeCtrl_of_neither (hr : v.getLsbD 1 = false) (hc : v.getLsbD 0 = false) : writeCtrl v s = s := by
  rw [writeCtrl, hr, hc, if_neg Bool.false_ne_true, if_neg Bool.false_ne_true]

theorem clearFault_of_faulted (hf : s.faulted = true) : clearFault s = { s with cause := 0, faulted := false } :=
  if_pos hf

theorem clearFault_of_not_faulted (hf : s.faulted = false) : clearFault s = s := by
  rw [clearFault, hf, if_neg Bool.false_ne_true]

/-- A write of CTRL is never held (20_memory.md R86): the oldest pending operation, it is the one that completes. -/
theorem hostReady_writeCtrl {left : List HostOp} (h : s.hostIn = .writeCtrl v :: left) :
    hostReady s = some (.writeCtrl v, left) := by
  simp [hostReady, h, hostHeld]

/-- CLRFAULT ends FAULTED with the FIFO and FCMD kept (60_exceptions.md R414). -/
theorem hostStep_clrfault (hr : v.getLsbD 1 = false) (hc : v.getLsbD 0 = true) (hf : s.faulted = true) (left : List HostOp) :
    hostStep (.writeCtrl v) left s = { s with cause := 0, faulted := false, hostIn := left } :=
  (writeCtrl_of_clrfault hr hc).trans (clearFault_of_faulted hf)

end

/-- Settles O13: the bits of CTRL choose among soft reset, clearing the fault and no effect, and no command was executing while
FAULTED, so the oldest word is the next. -/
theorem controlWrites : Obligations.ControlWrites := by
  intro s v left
  refine ⟨fun hr => ?_, fun hr hc hf => ?_, fun hr hc hf => ?_, fun hr hc => ?_, fun hin hb => ?_⟩
  · exact writeCtrl_of_sreset hr
  · have hclr := hostStep_clrfault hr hc hf
    rw [hclr, hclr]
    refine ⟨rfl, fun hok hq => ?_, fun w rest hok hq => ⟨?_, ?_⟩⟩
    · simp [State.executor, (hok.1 hf).1, hq]
    · simp [executor_busy_iff, hq]
    · exact step_noHost _ w rest rfl rfl (hok.1 hf).1 hq
  · exact (writeCtrl_of_clrfault hr hc).trans (clearFault_of_not_faulted hf)
  · exact writeCtrl_of_neither hr hc
  · exact step_of_hostReady_some hb (hostReady_writeCtrl hin)

end Sys2Proof.Machine
end

section
/-! PROOF. What every command does (60_exceptions.md R400 to R412): with its checks met it retires with `result`, and with one
failing it records the cause of the first that fails. Every later proof about a command goes through `exec_of_checks`,
`exec_of_failing` or `exec_cases`. -/

namespace Sys2Proof.Machine

/-! ### The list of checks -/

/-- No check fails where all of them hold. -/
theorem firstFailing_none_iff {l : List (Prop × Cause)} : FirstFailing l none ↔ ∀ k ∈ l, k.1 := by
  induction l with
  | nil => simp [FirstFailing]
  | cons k rest ih => simp [FirstFailing, ih]

/-- A list of checks has one first failing check, or none. -/
theorem firstFailing_unique {l : List (Prop × Cause)} {o o' : Option Cause} (h : FirstFailing l o)
    (h' : FirstFailing l o') : o = o' := by
  induction l with
  | nil => exact h.trans h'.symm
  | cons k rest ih =>
    rcases h with ⟨hk, h⟩ | ⟨hk, h⟩ <;> rcases h' with ⟨hk', h'⟩ | ⟨hk', h'⟩
    · exact ih h h'
    · exact absurd hk hk'
    · exact absurd hk' hk
    · exact h.trans h'.symm

/-! ### What a command computes -/

/-- The stream after BAPAD on a stream whose words have room (45_bitappender.md R297). -/
def BitStream.padded (b : BitStream) : BitStream :=
  if b.packer.bacurlen = 0 then b
  else
    let p := b.packer
    let k := p.baw.toNat - p.bacurlen.toNat
    let v := p.bacur.toNat * 2 ^ k + (2 ^ k - 1)
    let v := if p.basd = false ∧ v + 1 = 2 ^ p.baw.toNat then v - 1 else v
    ⟨{ p with balen := p.balen + BitVec.ofNat 32 k, bacur := 0, bacurlen := 0 }, b.words ++ [BitVec.ofNat 16 v]⟩

/-- The stream after the bits `bits`, where its words have room (45_bitappender.md R292). -/
def BitStream.fed (b : BitStream) (bits : List Bool) : BitStream :=
  ⟨(b.packer.run bits).1, b.words ++ (b.packer.run bits).2⟩

/-- The bank MENC computes for the text at S[raddr] (46_mode_encoder.md R350). -/
def mencBank (s : State) (raddr rn rw : SReg) : Bank :=
  finalBank s.cfg.aztec (BitVec.ofNat 5 (s.sreg rw).toNat)
    ((Memory.readBlock s.dmem (s.sreg raddr).toNat (s.sreg rn).toNat).map (fun v => v.toNat))

/-- The stream of the bits MENC chooses, before the padding (46_mode_encoder.md R350). -/
def mencStream (s : State) (raddr rn rw : SReg) : BitStream :=
  (BitStream.mk (Packer.init (BitVec.ofNat 5 (s.sreg rw).toNat) false) []).fed
    (chosenSlot (mencBank s raddr rn rw)).2.bits

/-- The state a command leaves when it retires, but for CMDCNT. -/
def result (i : Instr) (s : State) : State :=
  match i with
  | .nop => s
  | .li rd imm16 => s.setS rd (imm16.setWidth 32)
  | .lih rd imm16 => s.setS rd (imm16 ++ (s.sreg rd).setWidth 16)
  | .mov rd rs => s.setS rd (s.sreg rs)
  | .ldw rd ra => s.setS rd ((Memory.read s.dmem (s.sreg ra).toNat).setWidth 32)
  | .stw rv ra => s.setMem (Memory.write s.dmem (s.sreg ra).toNat ((s.sreg rv).setWidth 16))
  | .rdcsr rd n => s.setS rd ((csrInCommand s n.toNat).getD 0)
  | .fcfg rsize rgen rbase =>
    commitField ((buildField (s.sreg rsize).toNat (s.sreg rgen).toNat (s.sreg rbase).toNat).getD FieldCfg.none) s
  | .gadd rd rx ry => s.setElem rd (elemOf (s.sreg rx) ^^^ elemOf (s.sreg ry))
  | .gmul rd rx ry => s.setElem rd (gmul s.field (elemOf (s.sreg rx)) (elemOf (s.sreg ry)))
  | .ginv rd rx => s.setElem rd (ginv s.field (elemOf (s.sreg rx)))
  | .gdiv rd rx ry => s.setElem rd (gmul s.field (elemOf (s.sreg rx)) (ginv s.field (elemOf (s.sreg ry))))
  | .gexp rd re => s.setElem rd (alphaPow s.field (s.sreg re).toNat)
  | .glog rd rx => s.setCount rd (logAt s.field (elemOf (s.sreg rx)))
  | .pzero qd => s.setQ qd [0]
  | .pone qd => s.setQ qd [1]
  | .pmono qd rdeg rk => s.setQ qd (pmono (s.sreg rdeg).toNat (elemOf (s.sreg rk)))
  | .padd qd qs => s.setQ qd (padd (s.qreg qd) (s.qreg qs))
  | .pmul qd qx qy => s.setQ qd (pmul s.field (s.qreg qx) (s.qreg qy))
  | .pscal qd rk => s.setQ qd (pscal s.field (s.qreg qd) (elemOf (s.sreg rk)))
  | .pshift qd rk => s.setQ qd (pshift (s.qreg qd) (s.sreg rk).toNat)
  | .peval rd q rx => s.setElem rd (peval s.field (s.qreg q) (elemOf (s.sreg rx)))
  | .pdeg rd q => s.setCount rd (deg (s.qreg q))
  | .plead rd q => s.setElem rd (lead (s.qreg q))
  | .pconst rd q => s.setElem rd (coef (s.qreg q) 0)
  | .pcoef rd q rk => s.setElem rd (coef (s.qreg q) (s.sreg rk).toNat)
  | .pcopy qd qs => s.setQ qd (s.qreg qs)
  | .pld qd raddr rn => s.setQ qd (norm (blockElems s (s.sreg raddr).toNat (s.sreg rn).toNat))
  | .pst rd q raddr =>
    (s.setMem (Memory.writeBlock s.dmem (s.sreg raddr).toNat (elemHalves (s.qreg q)))).setCount rd (s.qreg q).length
  | .pzeros rd q => (s.setRbuf (pzeros s.field (s.qreg q))).setCount rd (pzeros s.field (s.qreg q)).length
  | .rsgen qd rp => s.setQ qd (genPoly s.field (s.sreg rp).toNat)
  | .rsenc qg rmsg rl rdst =>
    let m := blockElems s (s.sreg rmsg).toNat (s.sreg rl).toNat
    s.setMem (Memory.writeBlock s.dmem (s.sreg rdst).toNat (elemHalves (m ++ parity s.field (s.qreg qg) m)))
  | .rssyn qs raddr rn rp =>
    let ss := syndromes s.field (blockElems s (s.sreg raddr).toNat (s.sreg rn).toNat) (s.sreg rp).toNat
    (s.setQ qs (syndromePoly ss)).setSynz (allZero ss)
  | .rseuc qsig qomg qs rp =>
    (euclid s.field (s.sreg rp).toNat (s.qreg qs)).elim (s.setEucfail true)
      fun d => ((s.setQ qsig d.1).setQ qomg d.2).setEucfail false
  | .rsfix rd raddr rn qomg =>
    let fixed := fixWord s.field (s.qreg qomg) s.rbuf (blockElems s (s.sreg raddr).toNat (s.sreg rn).toNat)
    ((s.setMem (Memory.writeBlock s.dmem (s.sreg raddr).toNat (elemHalves fixed.1))).setDnfix fixed.2).setCount rd fixed.2
  | .rsdec rd raddr rn rp =>
    let w := blockElems s (s.sreg raddr).toNat (s.sreg rn).toNat
    let ss := syndromes s.field w (s.sreg rp).toNat
    if allZero ss then (((s.setSynz true).setDstat .noErrors).setDnfix 0).setS rd 1
    else (euclid s.field (s.sreg rp).toNat (syndromePoly ss)).elim
      ((((s.setSynz false).setDstat .uncorrectable).setDnfix 0).setS rd 0)
      fun d => (((((s.setSynz false).setMem (Memory.writeBlock s.dmem (s.sreg raddr).toNat
        (elemHalves (fixWord s.field d.2 (pzeros s.field d.1) w).1))).setDstat .corrected).setDnfix
        (fixWord s.field d.2 (pzeros s.field d.1) w).2).setS rd 1)
  | .rbst rd raddr =>
    (s.setMem (Memory.writeBlock s.dmem (s.sreg raddr).toNat (elemHalves s.rbuf))).setCount rd s.rcount
  | .bainit rw sd => s.setStream ⟨Packer.init (BitVec.ofNat 5 (s.sreg rw).toNat) sd, []⟩
  | .baapp rv rn => s.setStream (s.stream.fed (natBits (s.sreg rn).toNat (s.sreg rv).toNat))
  | .bapad => s.setStream s.stream.padded
  | .bast rd raddr =>
    (s.setMem (Memory.writeBlock s.dmem (s.sreg raddr).toNat s.stream.words)).setCount rd s.banw
  | .menc rd raddr rn rw =>
    let b := mencStream s raddr rn rw
    let bank := mencBank s raddr rn rw
    ((s.setStream b.padded).setMenc (mencResult (BitVec.ofNat 5 (s.sreg rw).toNat) b.packer.balen (chosenSlot bank).1
      (s.sreg rn).toNat bank)).setS rd b.packer.balen
  | .mslot rd rm => s.setS rd ((s.menc.mslots[(s.sreg rm).toNat]?.getD none).getD 0xFFFFFFFF)

/-! ### The checks that hold -/

section
variable {s : State}

theorem needField_of_valid (h : s.field.valid = true) : needField s = .ok s.field :=
  (needField_ok s _).2 ⟨h, rfl⟩

theorem elemOperand_of_lt {r : SReg} (h : (s.sreg r).toNat < s.field.size.toNat) :
    elemOperand s.field (s.sreg r) = .ok (elemOf (s.sreg r)) :=
  (elemOperand_ok _ _ _).2 ⟨h, rfl⟩

theorem nonzeroElem_of_ne {x : Elem} (h : x ≠ 0) : nonzeroElem x = .ok x :=
  (nonzeroElem_ok x x).2 ⟨h, rfl⟩

theorem parityOperand_of_le {r : SReg} (h : (s.sreg r).toNat ≤ s.field.size.toNat - 1) :
    parityOperand s.field (s.sreg r) = .ok (s.sreg r).toNat :=
  (parityOperand_ok _ _ _).2 ⟨h, rfl⟩

theorem addrOperand_of_lt {r : SReg} (h : (s.sreg r).toNat < s.cfg.dmemWords) :
    addrOperand s (s.sreg r) = .ok (s.sreg r).toNat :=
  (addrOperand_ok _ _ _).2 ⟨h, rfl⟩

theorem check_of {p : Prop} [Decidable p] {c : Cause} (h : p) : check p c = .ok () :=
  (check_ok p c).2 h

theorem checkBlock_of_inRange {a n : Nat} (h : blockInRange s a n) : checkBlock s a n = .ok () :=
  (checkBlock_ok s a n).2 h

theorem elemBlock_of_lt {a n : Nat} (h : ∀ v ∈ Memory.readBlock s.dmem a n, v.toNat < s.field.size.toNat) :
    elemBlock s.field s a n = .ok (blockElems s a n) :=
  (elemWords_ok _ _ _).2 ⟨h, rfl⟩

theorem textWords_of_lt {ws : List Half} (h : ∀ v ∈ ws, v.toNat < 256) :
    textWords ws = .ok (ws.map (fun v => v.toNat)) :=
  (textWords_ok _ _).2 ⟨h, rfl⟩

end

/-- Appending bits whose words have room succeeds (45_bitappender.md R292). -/
theorem feed_of_room {b : BitStream} {bits : List Bool}
    (h : ∀ p ws, b.packer.run bits = (p, ws) → ws = [] ∨ b.words.length + ws.length ≤ 4096) :
    b.feed bits = .ok (b.fed bits) :=
  (store_ok b _ _ _).2 ⟨h _ _ rfl, rfl⟩

/-- Padding a stream that is whole or has room succeeds (45_bitappender.md R297). -/
theorem pad_of_room {b : BitStream} (h : b.packer.bacurlen = 0 ∨ b.words.length < 4096) : b.pad = .ok b.padded := by
  by_cases h0 : b.packer.bacurlen = 0
  · rw [BitStream.pad, BitStream.padded, if_pos h0, if_pos h0]
  · have hroom : b.words.length < 4096 := h.resolve_left h0
    rw [BitStream.pad, BitStream.padded, if_neg h0, if_neg h0]
    exact (store_ok b _ _ _).2 ⟨.inr hroom, rfl⟩

/-! ### Commands whose checks hold -/

/-- A first operation that succeeds leaves the end to the others. -/
theorem bind_eq_ok {α β : Type} {x : Except Cause α} {f : α → Except Cause β} {a : α} {b : β} (hx : x = .ok a)
    (hf : f a = .ok b) : (x >>= f) = .ok b := by
  rw [hx]
  exact hf

/-- A sequence of checks that succeeds retires the command. -/
theorem finish_of_ok {i : Instr} {s u : State} {r : Except Cause State} (h : r = .ok u) :
    finish i s r = .next (retire u) := by
  rw [h, finish_ok]

/-- A command all of whose checks hold retires with its result (60_exceptions.md R412). -/
theorem exec_of_checks {i : Instr} {s : State} (h : FirstFailing (checksOf i s) none) :
    exec i s = .next (retire (result i s)) := by
  cases i <;> simp only [checksOf, fieldCheck, elemCheck, parityCheck, blockCheck, wordsCheck, firstFailing_none_iff,
    List.forall_mem_cons, List.not_mem_nil, false_imp_iff, implies_true, and_true] at h
  case nop | li | lih | mov => rfl
  case ldw | stw => exact finish_of_ok (bind_eq_ok (addrOperand_of_lt h) rfl)
  case rdcsr rd n =>
    obtain ⟨v, hv⟩ := Option.ne_none_iff_exists'.1 fun hn => (csrInCommand_eq_none_iff s n.toNat).1 hn h
    rw [exec_rdcsr_of_some hv, result, hv, Option.getD_some]
  case fcfg =>
    obtain ⟨F, hF⟩ := Option.ne_none_iff_exists'.1 h.buildField_ne_none
    simp only [exec, execFcfg, result, hF, finish_ok, Option.getD_some]
  case gadd | gmul =>
    exact finish_of_ok (bind_eq_ok (needField_of_valid h.1) (bind_eq_ok (elemOperand_of_lt h.2.1)
      (bind_eq_ok (elemOperand_of_lt h.2.2) rfl)))
  case ginv | glog =>
    exact finish_of_ok (bind_eq_ok (needField_of_valid h.1) (bind_eq_ok (elemOperand_of_lt h.2.1)
      (bind_eq_ok (nonzeroElem_of_ne h.2.2) rfl)))
  case gdiv =>
    obtain ⟨hv, hx, hy, h0⟩ := h
    exact finish_of_ok (bind_eq_ok (needField_of_valid hv) (bind_eq_ok (elemOperand_of_lt hx)
      (bind_eq_ok (elemOperand_of_lt hy) (bind_eq_ok (nonzeroElem_of_ne h0) rfl))))
  case gexp | pzero | pone | padd | pdeg | plead | pconst | pcoef | pcopy | pzeros =>
    exact finish_of_ok (bind_eq_ok (needField_of_valid h) rfl)
  case pmono =>
    obtain ⟨hv, hk, hd⟩ := h
    exact finish_of_ok (bind_eq_ok (needField_of_valid hv) (bind_eq_ok (elemOperand_of_lt hk)
      (bind_eq_ok (check_of hd) rfl)))
  case pmul qd qx qy =>
    have hlen : (s.qreg qx = [0] ∨ s.qreg qy = [0]) ∨ (s.qreg qx).length + (s.qreg qy).length - 1 ≤ Config.polyMaxLen := by
      rw [or_assoc, Config.polyMaxLen, Nat.sub_le_iff_le_add]
      exact h.2
    exact finish_of_ok (bind_eq_ok (needField_of_valid h.1) (bind_eq_ok (check_of hlen) rfl))
  case pscal | peval =>
    exact finish_of_ok (bind_eq_ok (needField_of_valid h.1) (bind_eq_ok (elemOperand_of_lt h.2) rfl))
  case pshift => exact finish_of_ok (bind_eq_ok (needField_of_valid h.1) (bind_eq_ok (check_of h.2) rfl))
  case pld =>
    obtain ⟨hv, hn, hb, hw⟩ := h
    exact finish_of_ok (bind_eq_ok (needField_of_valid hv) (bind_eq_ok (check_of hn)
      (bind_eq_ok (checkBlock_of_inRange hb) (bind_eq_ok (elemBlock_of_lt hw) rfl))))
  case pst | rbst => exact finish_of_ok (bind_eq_ok (needField_of_valid h.1) (bind_eq_ok (checkBlock_of_inRange h.2) rfl))
  case rsgen => exact finish_of_ok (bind_eq_ok (needField_of_valid h.1) (bind_eq_ok (parityOperand_of_le h.2) rfl))
  case rsenc =>
    obtain ⟨hv, hg, hm, hd, hw⟩ := h
    exact finish_of_ok (bind_eq_ok (needField_of_valid hv) (bind_eq_ok (check_of ((lead_eq_one_iff _).2 hg))
      (bind_eq_ok (checkBlock_of_inRange hm) (bind_eq_ok (checkBlock_of_inRange hd) (bind_eq_ok (elemBlock_of_lt hw) rfl)))))
  case rssyn =>
    obtain ⟨hv, hP, hb, hw⟩ := h
    exact finish_of_ok (bind_eq_ok (needField_of_valid hv) (bind_eq_ok (parityOperand_of_le hP)
      (bind_eq_ok (checkBlock_of_inRange hb) (bind_eq_ok (elemBlock_of_lt hw) rfl))))
  case rseuc =>
    obtain ⟨hq, hv, h0, hP⟩ := h
    exact exec_rseuc_of_checks hq hv (Nat.one_le_iff_ne_zero.2 fun e => h0 (BitVec.eq_of_toNat_eq e)) hP
  case rsfix =>
    obtain ⟨hv, hb, hw⟩ := h
    exact finish_of_ok (bind_eq_ok (needField_of_valid hv) (bind_eq_ok (checkBlock_of_inRange hb)
      (bind_eq_ok (elemBlock_of_lt hw) rfl)))
  case rsdec =>
    obtain ⟨hv, hP, hb, hw⟩ := h
    exact exec_rsdec_of_checks hv hP ⟨hb, hw⟩ rfl rfl
  case bainit => exact finish_of_ok (bind_eq_ok (check_of h) rfl)
  case baapp =>
    obtain ⟨hw, hn, hroom⟩ := h
    rw [← natBits_eq_msbFirst] at hroom
    exact finish_of_ok (bind_eq_ok (check_of hw) (bind_eq_ok (check_of hn) (bind_eq_ok (feed_of_room hroom) rfl)))
  case bapad =>
    exact finish_of_ok (bind_eq_ok (check_of h.1) (bind_eq_ok (pad_of_room h.2) rfl))
  case bast => exact finish_of_ok (bind_eq_ok (checkBlock_of_inRange h) rfl)
  case menc =>
    obtain ⟨hW, hn, hb, ht, hfit⟩ := h
    simp only [List.mem_cons, List.not_mem_nil, or_false] at hW
    refine finish_of_ok (bind_eq_ok (check_of hW) (bind_eq_ok (check_of hn) (bind_eq_ok (checkBlock_of_inRange hb)
      (bind_eq_ok (textWords_of_lt ht) (bind_eq_ok (feed_of_room ?_) (bind_eq_ok (pad_of_room (hfit _ _ rfl).2) rfl))))))
    exact fun p ws hrun => .inr (by simpa using (hfit p ws hrun).1)
  case mslot rd rm =>
    obtain ⟨v, hv⟩ := Option.ne_none_iff_exists'.1 fun hn => (getSlot_eq_none_iff s.menc.mslots _).1 hn h
    simp [exec, execMslot, result, hv]

/-- A command with a failing check takes the cause of the first and leaves what R410 says (60_exceptions.md R402, R411). -/
theorem exec_of_failing {i : Instr} {s : State} {c : Cause} (h : FirstFailing (checksOf i s) (some c)) :
    exec i s = .next (takeFault (encode i) c (leftByFault i s)) := by
  obtain ⟨r, hr, hg⟩ := exec_guarded i s
  cases r with
  | ok u => cases firstFailing_unique hg.1 h
  | error d =>
    cases firstFailing_unique hg h
    exact hr

/-- All that a command can do. -/
theorem exec_cases (i : Instr) (s : State) :
    (FirstFailing (checksOf i s) none ∧ exec i s = .next (retire (result i s))) ∨
    (∃ c, FirstFailing (checksOf i s) (some c) ∧ exec i s = .next (takeFault (encode i) c (leftByFault i s))) := by
  obtain ⟨r, -, hg⟩ := exec_guarded i s
  cases r with
  | ok u => exact .inl ⟨hg.1, exec_of_checks hg.1⟩
  | error c => exact .inr ⟨c, hg, exec_of_failing hg⟩

/-- A result leaves the control state. -/
theorem control_result (i : Instr) (s : State) : (result i s).control = s.control := by
  cases i <;> simp only [result, setElem_eq, setCount_eq]
  case rseuc qsig qomg qs rp => cases euclid s.field (s.sreg rp).toNat (s.qreg qs) <;> simp
  case rsdec rd raddr rn rp =>
    split
    · simp
    · cases euclid s.field (s.sreg rp).toNat _ <;> simp
  all_goals simp

/-- What holds of the retired result where the checks hold, and of the recorded fault, holds of the state a command ends in. -/
theorem exec_induction {P : State → Prop} {i : Instr} {s t : State} (h : exec i s = .next t)
    (hr : FirstFailing (checksOf i s) none → P (retire (result i s)))
    (hf : ∀ c, FirstFailing (checksOf i s) (some c) → P (takeFault (encode i) c (leftByFault i s))) : P t := by
  obtain ⟨hc, he⟩ | ⟨c, hc, he⟩ := exec_cases i s <;> cases he.symm.trans h
  · exact hr hc
  · exact hf c hc

/-- Settles O9: the checks of a command decide whether it retires or which fault it records, and neither end touches the control
registers otherwise. -/
theorem commandChecks : Obligations.CommandChecks := by
  refine ⟨causeCode_eq_faultCode, fun i s o h => ?_⟩
  cases o with
  | none =>
    have hcontrol := control_result i s
    have hcnt : (result i s).cmdcnt = s.cmdcnt := congrArg Control.cmdcnt hcontrol
    exact ⟨_, exec_of_checks h, congrArg (· + 1) hcnt, congrArg Control.faulted hcontrol, congrArg Control.cause hcontrol,
      congrArg Control.fcmd hcontrol⟩
  | some c =>
    exact ⟨_, exec_of_failing h, congrArg Control.cmdcnt (control_leftByFault i s), rfl, causeCode_eq_faultCode c, rfl⟩

/-- How every command ends, in the terms of the statements. -/
theorem EndsFrom.endsCommand {i : Instr} {s t : State} (h : EndsFrom i s t) : EndsCommand i s t := by
  cases h with
  | @retired u hu =>
    simp only [State.control, Control.mk.injEq] at hu
    obtain ⟨hfifo, hrun, hflt, hcause, hfcmd, hcnt, hcfg, hin, hout, hfree⟩ := hu
    exact ⟨.inl ⟨hflt, hcause, hfcmd, congrArg (· + 1) hcnt⟩, hfifo, hrun, hcfg, hin, hout, hfree⟩
  | @faulted u hu c =>
    simp only [State.control, Control.mk.injEq] at hu
    obtain ⟨hfifo, hrun, hflt, hcause, hfcmd, hcnt, hcfg, hin, hout, hfree⟩ := hu
    exact ⟨.inr ⟨rfl, ⟨c, causeCode_eq_faultCode c⟩, rfl, hcnt⟩, hfifo, hrun, hcfg, hin, hout, hfree⟩

/-- Settles O8: every command answers a next state, and each end leaves the control state but for what R411 and R412 write. -/
theorem everyCommandEnds : Obligations.EveryCommandEnds := by
  intro i s
  obtain ⟨t, ht⟩ := exec_isNext i s
  exact ⟨t, ht, (exec_endsFrom ht).endsCommand⟩

end Sys2Proof.Machine
end

section
/-! PROOF. The encoding (30_encoding.md R101 to R114): decoding undoes encoding, a legal word is the word of its command, and
the decoder is the opcode map. -/

namespace Sys2Proof.Machine

/-! ### The fields of a word that the encoder packs -/

/-- A format R word decodes from the fields it was packed from; the last two are the fields of format I it shows. -/
theorem decode_packR {op a b c d imm : Nat} (ho : op < 64) (ha : a < 16) (hb : b < 16) (hc : c < 16) (hd : d < 16)
    (hi : imm < 1024) :
    decode (packR op a b c d imm) = decodeFields op a b c d imm (b * 4 + c / 4) (c % 4 * 2 ^ 14 + d * 2 ^ 10 + imm) := by
  simp only [decode, field, packR, BitVec.toNat_ofNat]
  congr 1 <;> omega

/-- A format I word with an LI or LIH opcode decodes from the fields it was packed from. -/
theorem decode_packI {op a imm16 : Nat} (ho : op < 64) (ha : a < 16) (hi : imm16 < 65536) :
    decode (packI op a imm16) = decodeFields op a 0 (imm16 / 2 ^ 14) (imm16 / 2 ^ 10 % 16) (imm16 % 1024) 0 imm16 := by
  simp only [decode, field, packI, BitVec.toNat_ofNat]
  rw [Nat.mod_eq_of_lt (show op * 2 ^ 26 + a * 2 ^ 22 + imm16 < 2 ^ 32 by omega)]
  congr 1 <;> omega

@[simp] theorem sreg_val (r : SReg) : Sys2Proof.sreg r.val = r :=
  Fin.ext (val_sreg r.isLt)

@[simp] theorem qreg_val (q : QReg) : Sys2Proof.qreg q.val = q :=
  Fin.ext (val_qreg q.isLt)

/-- A row answers its command where its fixed bits are as they must be. -/
theorem need_of {fixed : Prop} [Decidable fixed] (h : fixed) (i : Instr) : need fixed i = .ok i :=
  if_pos h

/-- Settles O2: the fields of the packed word are those of the command, and they meet the fixed bits of its row. -/
theorem decodeOfEncode : Obligations.DecodeOfEncode := by
  intro i hwf
  cases i
  case li rd imm | lih rd imm =>
    rw [encode, decode_packI (by decide) rd.isLt imm.isLt]
    simp [decodeFields, need_of]
  case rdcsr rd csr =>
    rw [encode, decode_packR (by decide) rd.isLt (by decide) (by decide) (by decide) csr.isLt]
    simp [decodeFields, need_of]
  case bainit rw' sd =>
    rw [encode, decode_packR (by decide) (by decide) rw'.isLt (by decide) (by decide) (by cases sd <;> decide)]
    cases sd <;> simp [decodeFields, need_of]
  case rseuc qsig qomg qs rp =>
    have hne : qsig.val ≠ qomg.val := fun h => by simp [Instr.wf, Fin.ext h] at hwf
    rw [encode, decode_packR (by decide) (by omega) (by omega) (by omega) rp.isLt (by decide)]
    simp [decodeFields, need_of, hne]
  all_goals
    rw [encode, decode_packR (by decide) (by omega) (by omega) (by omega) (by omega) (by decide)]
    simp [decodeFields, need_of]

/-- A word that decodes gives a well-formed command: RSEUC with a = b is rejected (30_encoding.md R112 (3)). -/
theorem wf_of_decodeFields {op a b c d imm z imm16 : Nat} {i : Instr}
    (h : decodeFields op a b c d imm z imm16 = .ok i) : i.wf = true := by
  unfold decodeFields at h
  split at h
  case h_44 => cases h -- the reserved opcodes
  case h_34 => -- RSEUC
    split at h
    · cases h
    next hab =>
      obtain ⟨⟨ha, hb, hc, hi⟩, rfl⟩ := need_eq_ok.1 h
      have hne : a ≠ b := fun e => hab ⟨ha, hb, hc, hi, e⟩
      simpa [Instr.wf, Fin.ext_iff, val_qreg, ha, hb] using hne
  all_goals
    obtain ⟨-, rfl⟩ := need_eq_ok.1 h
    rfl

/-- Settles O3: a legal word is the word of its command, which passed the static check. -/
theorem encodeOfDecode : Obligations.EncodeOfDecode :=
  fun _ _ h => ⟨encode_of_decode h, wf_of_decodeFields h⟩

/-! ### The opcode map -/

/-- A field of an AND is the AND of the fields. -/
theorem field_and (w m : Word) (lo width : Nat) : field (w &&& m) lo width = field w lo width &&& field m lo width := by
  simp only [field, BitVec.toNat_and, Nat.and_div_two_pow, Nat.and_mod_two_pow]

/-- A word is its fields of format R (30_encoding.md R101). -/
theorem eq_iff_fields (w v : Word) : w = v ↔ field w 26 6 = field v 26 6 ∧ field w 22 4 = field v 22 4 ∧
    field w 18 4 = field v 18 4 ∧ field w 14 4 = field v 14 4 ∧ field w 10 4 = field v 10 4 ∧ field w 0 10 = field v 0 10 := by
  constructor
  · rintro rfl
    simp
  · rintro ⟨hop, ha, hb, hc, hd, hi⟩
    rw [← packR_fields w, ← packR_fields v, hop, ha, hb, hc, hd, hi]

/-- A word meets a row's match and mask where each of its fields meets that part of them. -/
theorem and_eq_iff_fields (w m p : Word) : w &&& m = p ↔
    field w 26 6 &&& m.toNat / 2 ^ 26 % 2 ^ 6 = p.toNat / 2 ^ 26 % 2 ^ 6 ∧
    field w 22 4 &&& m.toNat / 2 ^ 22 % 2 ^ 4 = p.toNat / 2 ^ 22 % 2 ^ 4 ∧
    field w 18 4 &&& m.toNat / 2 ^ 18 % 2 ^ 4 = p.toNat / 2 ^ 18 % 2 ^ 4 ∧
    field w 14 4 &&& m.toNat / 2 ^ 14 % 2 ^ 4 = p.toNat / 2 ^ 14 % 2 ^ 4 ∧
    field w 10 4 &&& m.toNat / 2 ^ 10 % 2 ^ 4 = p.toNat / 2 ^ 10 % 2 ^ 4 ∧
    field w 0 10 &&& m.toNat / 2 ^ 0 % 2 ^ 10 = p.toNat / 2 ^ 0 % 2 ^ 10 := by
  rw [eq_iff_fields]
  simp only [field_and]
  rfl

theorem and_opcode_mask (w : Word) : field w 26 6 &&& 63 = field w 26 6 := by
  rw [show 63 = 2 ^ 6 - 1 from rfl, Nat.and_two_pow_sub_one_eq_mod, Nat.mod_eq_of_lt (field_lt w 26 6)]

/-- A mask of all bits of a 4-bit field. -/
theorem and_fifteen_eq_zero {n : Nat} (h : n < 16) : n &&& 15 = 0 ↔ n = 0 := by
  rw [show 15 = 2 ^ 4 - 1 from rfl, Nat.and_two_pow_sub_one_eq_mod, Nat.mod_eq_of_lt h]

/-- A mask of the top bit of a 4-bit field, for a field of kind Q (30_encoding.md R103). -/
theorem and_eight_eq_zero {n : Nat} (h : n < 16) : n &&& 8 = 0 ↔ n < 8 := by
  interval_cases n <;> decide

/-- A mask of the top two bits of a 4-bit field, for the bits of field 21:16 that lie in field c (R102). -/
theorem and_twelve_eq_zero {n : Nat} (h : n < 16) : n &&& 12 = 0 ↔ n < 4 := by
  interval_cases n <;> decide

/-- A mask of all of imm10. -/
theorem and_imm_eq_zero {n : Nat} (h : n < 1024) : n &&& 1023 = 0 ↔ n = 0 := by
  rw [show 1023 = 2 ^ 10 - 1 from rfl, Nat.and_two_pow_sub_one_eq_mod, Nat.mod_eq_of_lt h]

/-- A mask of all of imm10 but bit 0, for BAINIT. -/
theorem and_imm_high_eq_zero {n : Nat} (h : n < 1024) : n &&& 1022 = 0 ↔ n < 2 := by
  have hhalf : (n &&& 1022) / 2 = n / 2 := by
    calc (n &&& 1022) / 2 ^ 1 = n / 2 &&& 2 ^ 9 - 1 := Nat.and_div_two_pow
      _ = n / 2 % 2 ^ 9 := Nat.and_two_pow_sub_one_eq_mod _ 9
      _ = n / 2 := Nat.mod_eq_of_lt (by omega)
  have hbit : (n &&& 1022) % 2 = 0 := by
    calc (n &&& 1022) % 2 ^ 1 = n % 2 &&& 0 := Nat.and_mod_two_pow
      _ = 0 := Nat.and_zero _
  omega

/-- The masks of the opcode map (30_encoding.md R110) as conditions on the fields of a word. -/
theorem field_masks (w : Word) :
    (∀ lo, field w lo 4 &&& 15 = 0 ↔ field w lo 4 = 0) ∧ (∀ lo, field w lo 4 &&& 8 = 0 ↔ field w lo 4 < 8) ∧
    (∀ lo, field w lo 4 &&& 12 = 0 ↔ field w lo 4 < 4) ∧ (field w 0 10 &&& 1023 = 0 ↔ field w 0 10 = 0) ∧
    (field w 0 10 &&& 1022 = 0 ↔ field w 0 10 < 2) :=
  ⟨fun lo => and_fifteen_eq_zero (field_lt w lo 4), fun lo => and_eight_eq_zero (field_lt w lo 4),
    fun lo => and_twelve_eq_zero (field_lt w lo 4), and_imm_eq_zero (field_lt w 0 10), and_imm_high_eq_zero (field_lt w 0 10)⟩

/-- Field 21:16 of format I is field b with the top bits of field c (30_encoding.md R101, R102). -/
theorem field_z_eq_zero (w : Word) : field w 16 6 = 0 ↔ field w 18 4 = 0 ∧ field w 14 4 < 4 := by
  simp only [field]
  omega

/-- The row of an opcode (30_encoding.md R110). -/
def rowAt (op : Nat) : Option OpcodeRow :=
  opcodeMap.find? (fun r => r.opcode == op)

/-- A command's word meets the match and mask of its opcode's row. -/
theorem row_of_decode {w : Word} {i : Instr} (h : decode w = .ok i) :
    ∃ row, rowAt (field w 26 6) = some row ∧ row.mnemonic = mnemonicOf i ∧ w &&& row.mask = row.pattern := by
  have hmask := field_masks w
  have hz := field_z_eq_zero w
  unfold decode decodeFields at h
  split at h
  case h_44 => cases h -- the reserved opcodes
  case h_34 hop => -- RSEUC
    split at h
    · cases h
    · obtain ⟨hf, rfl⟩ := need_eq_ok.1 h
      rw [hop]
      refine ⟨_, rfl, rfl, ?_⟩
      simp [and_eq_iff_fields, hop, hmask, hf]
  all_goals
    rename_i hop
    obtain ⟨hf, rfl⟩ := need_eq_ok.1 h
    rw [hop]
    refine ⟨_, rfl, rfl, ?_⟩
    simp [and_eq_iff_fields, hop, hmask, hf, hz.1]

/-- A word that meets a row's match and mask decodes to the row's command, but for RSEUC with a = b. -/
theorem decode_of_row {w : Word} {row : OpcodeRow} (hrow : row ∈ opcodeMap) (h : w &&& row.mask = row.pattern) :
    if row.opcode = 0x33 ∧ field w 22 4 = field w 18 4 then decode w = .error .rseucSameDestination
    else ∃ i, decode w = .ok i ∧ mnemonicOf i = row.mnemonic := by
  have hmask := field_masks w
  have hz := field_z_eq_zero w
  have hopc := and_opcode_mask w
  revert row
  unfold decode
  simp only [opcodeMap, List.cons_append, List.nil_append, List.forall_mem_cons, List.not_mem_nil, false_imp_iff,
    implies_true, and_true]
  and_intros <;> intro h <;> simp [and_eq_iff_fields, hmask, hopc, ← hz] at h
  all_goals simp [h, decodeFields, need, mnemonicOf]
  exact fun hne => ⟨_, if_neg hne, rfl⟩ -- RSEUC

theorem need_ne_reserved (fixed : Prop) [Decidable fixed] (i : Instr) : need fixed i ≠ .error .reservedOpcode := by
  unfold need
  split <;> simp

/-- A word is rejected for its opcode where that is none of the map (30_encoding.md R113). -/
theorem decode_reserved_iff (w : Word) :
    ((0x07 ≤ field w 26 6 ∧ field w 26 6 ≤ 0x0F) ∨ (0x17 ≤ field w 26 6 ∧ field w 26 6 ≤ 0x1F) ∨ field w 26 6 = 0x37 ∨
      field w 26 6 = 0x3E ∨ field w 26 6 = 0x3F) ↔ decode w = .error .reservedOpcode := by
  have hlt := field_lt w 26 6
  unfold decode decodeFields
  split
  case h_44 => -- the reserved opcodes
    simp only [iff_true, imp_false] at *
    omega
  case h_34 hop => -- RSEUC
    have hne : ¬ (if field w 22 4 < 8 ∧ field w 18 4 < 8 ∧ field w 14 4 < 8 ∧ field w 0 10 = 0 ∧
        field w 22 4 = field w 18 4 then .error DecodeError.rseucSameDestination
        else need (field w 22 4 < 8 ∧ field w 18 4 < 8 ∧ field w 14 4 < 8 ∧ field w 0 10 = 0)
          (.rseuc (qreg (field w 22 4)) (qreg (field w 18 4)) (qreg (field w 14 4)) (Sys2Proof.sreg (field w 10 4)))) =
        .error .reservedOpcode := by
      split
      · simp
      · exact need_ne_reserved _ _
    simp only [hne, iff_false]
    omega
  all_goals
    simp only [need_ne_reserved, iff_false]
    omega

/-- Settles O4: the mask of each row covers exactly the bits its line of the decoder fixes. -/
theorem decodeIsOpcodeMap : Obligations.DecodeIsOpcodeMap := by
  refine fun w => ⟨fun i h => ?_, fun row hrow h => decode_of_row hrow h, decode_reserved_iff w⟩
  obtain ⟨row, hrow, hmnemonic, hmatch⟩ := row_of_decode h
  exact ⟨row, List.mem_of_find?_eq_some hrow, hmnemonic, hmatch⟩

end Sys2Proof.Machine
end

section
/-! PROOF. The executor's step beside the host (70_reset_and_hazards.md R458, R464), the host port (20_memory.md R85, R86), the
CSRs (10_state.md R38 to R40) and the reset state (R52). -/

namespace Sys2Proof.Machine

/-! ### A step that ends a word -/

section
variable {s : State} {w : Word}

/-- While BUSY with host operations pending, a step is a host operation, the taking of a word, or the end of a command, after
one draw of the free choices (70_reset_and_hazards.md R464). -/
theorem step_shared_cases (hb : s.executor = .busy) (hi : s.hostIn ≠ []) :
    (∃ op left, hostReady s = some (op, left) ∧ step s = .next (hostStep op left (countDraw s))) ∨
    (s.running = none ∧ step s = .next (takeWord (countDraw s))) ∨ step s = commandStep (countDraw s) := by
  have hstep : step s = sharedStep s := by simp [step, nextStep, hb, hi]
  rw [hstep, sharedStep]
  split
  next op left hready _ => exact .inl ⟨op, left, hready, rfl⟩
  · split
    next htake => exact .inr (.inl ⟨htake.1, rfl⟩)
    · exact .inr (.inr rfl)

/-- With host operations pending, a step ends the executing word or a host operation completes. -/
theorem step_running_shared (hf : s.faulted = false) (hr : s.running = some w) (hi : s.hostIn ≠ []) :
    step s = runWord w { s with running := none, freeCount := s.freeCount + 1 } ∨
    ∃ op left, hostReady s = some (op, left) ∧
      step s = .next (hostStep op left { s with freeCount := s.freeCount + 1 }) := by
  have hb : s.executor = .busy := (executor_busy_iff s).2 ⟨hf, by simp [hr]⟩
  rcases step_shared_cases hb hi with h | ⟨hnone, -⟩ | h
  · exact .inr h
  · simp [hr] at hnone
  · exact .inl (h.trans (by simp [commandStep, countDraw, hr]))

/-- With host operations pending and nothing executing, a step ends the oldest word, only takes it, or a host operation
completes. -/
theorem step_fifo_shared (hf : s.faulted = false) (hr : s.running = none) {rest : List Word} (hq : s.fifo = w :: rest)
    (hi : s.hostIn ≠ []) :
    step s = runWord w { s with fifo := rest, freeCount := s.freeCount + 1 } ∨
    step s = .next { s with fifo := rest, running := some w, freeCount := s.freeCount + 1 } ∨
    ∃ op left, hostReady s = some (op, left) ∧
      step s = .next (hostStep op left { s with freeCount := s.freeCount + 1 }) := by
  have hb : s.executor = .busy := (executor_busy_iff s).2 ⟨hf, by simp [hq]⟩
  rcases step_shared_cases hb hi with h | ⟨-, h⟩ | h
  · exact .inr (.inr h)
  · exact .inr (.inl (h.trans (by simp [takeWord, countDraw, hq])))
  · exact .inl (h.trans (by simp [commandStep, countDraw, hr, hq]))

/-- A word that decodes runs its command. -/
theorem runWord_of_ok {i : Instr} (h : decode w = .ok i) (u : State) : runWord w u = exec i u := by
  simp [runWord, h]

end

/-- Settles O5: whichever word a step ends, it runs it, and a word that decodes runs its command. -/
theorem stepRunsDecodedCommand : Obligations.StepRunsDecodedCommand := by
  intro s w i hf hd
  simp only [← runWord_of_ok hd]
  exact ⟨fun hr => ⟨fun hi => step_running s w hi hf hr, step_running_shared hf hr⟩,
    fun rest hr hq => ⟨fun hi => step_noHost s w rest hi hf hr hq, step_fifo_shared hf hr hq⟩⟩

/-- Settles O6: whichever word a step ends, it runs it, and a word that is no command records its fault alone. -/
theorem illegalWordFaults : Obligations.IllegalWordFaults := by
  intro s w e hf hd
  refine ⟨fun hr => ⟨fun hi => ?_, fun hi => ?_⟩, fun rest hr hq => ⟨fun hi => ?_, fun hi => ?_⟩⟩
  · exact (step_running s w hi hf hr).trans (runWord_of_error hd _)
  · exact (step_running_shared hf hr hi).imp_left fun h => h.trans (runWord_of_error hd _)
  · exact (step_noHost s w rest hi hf hr hq).trans (runWord_of_error hd _)
  · exact (step_fifo_shared hf hr hq hi).imp_left fun h => h.trans (runWord_of_error hd _)

/-- A table word that decodes is a 32-bit word that does. -/
theorem decode_of_decodeTableWord {nbits w : Nat} {i : Instr} (h : decodeTableWord nbits w = some i) :
    decode (BitVec.ofNat 32 w) = .ok i := by
  unfold decodeTableWord at h
  split at h
  · split at h
    next j hj =>
      cases h
      exact hj
    · cases h
  · cases h

/-- Settles O7: the placed word is the oldest of the FIFO, with nothing before it. -/
theorem placedWordRunsNext : Obligations.PlacedWordRunsNext := by
  intro s nbits w i h
  refine ⟨{ placeWord s (BitVec.ofNat 32 w) with fifo := s.fifo.tail }, ?_, ?_⟩
  · rw [← runWord_of_ok (decode_of_decodeTableWord h)]
    exact step_noHost _ _ _ rfl (placeWord_faulted s _) rfl rfl
  · rcases clearFault_cases s with ⟨hc, hf⟩ | ⟨hc, -⟩
    · simp [placeWord, hc, hf]
    · simp [placeWord, hc]

/-! ### The host port -/

section
variable {s : State}

theorem hostHeld_of_neverHeld {op : HostOp} (h : neverHeld op = true) (s : State) : hostHeld op s = false := by
  cases op <;> simp_all [neverHeld, hostHeld]

/-- What completes before a held operation is never held. -/
theorem neverHeld_of_take {l left : List HostOp} {op : HostOp} (h : takeNeverHeld l = some (op, left)) :
    neverHeld op = true := by
  induction l generalizing left with
  | nil => cases h
  | cons o rest ih =>
    unfold takeNeverHeld at h
    split at h
    next hn =>
      cases h
      exact hn
    · obtain ⟨r, hr, hop⟩ := Option.map_eq_some_iff.1 h
      cases hop
      exact ih hr

/-- The oldest operation is the one to complete exactly where it is not held. -/
theorem hostReady_oldest_iff {op : HostOp} {rest : List HostOp} (h : s.hostIn = op :: rest) :
    hostReady s = some (op, rest) ↔ hostHeld op s = false := by
  simp only [hostReady, h]
  cases hheld : hostHeld op s with
  | false => simp
  | true =>
    simp only [if_true, Bool.true_eq_false, iff_false]
    intro heq
    obtain ⟨r, hr, hop⟩ := Option.map_eq_some_iff.1 heq
    cases hop
    simp [hostHeld_of_neverHeld (neverHeld_of_take hr)] at hheld

/-- The host reads every CSR of the map (10_state.md R38). -/
theorem csrFromHost_eq_none_iff (s : State) (n : Nat) : csrFromHost s n = none ↔ 0x015 < n := by
  constructor
  · intro h
    by_contra hn
    interval_cases n <;> cases h
  · intro hn
    unfold csrFromHost csrValue
    split
    case h_23 => rfl -- the reserved numbers
    all_goals omega

/-- A write of a DMEM word changes that word alone (20_memory.md R85). -/
theorem hostStep_writeDmem_of_lt {a : Nat} (h : a < s.cfg.dmemWords) (v : Half) (left : List HostOp) :
    hostStep (.writeDmem a v) left s = { s with hostIn := left, dmem := Memory.write s.dmem a v } :=
  if_pos h

end

/-- Settles O14: what is held is decided on the oldest operation, and each operation's effect is its own equation. -/
theorem hostPort : Obligations.HostPort := by
  refine ⟨fun s op rest hin => ?_, fun v n => ⟨rfl, rfl, rfl, rfl⟩, fun s op left => step_of_hostReady_some, fun s left => ?_⟩
  · rw [hostReady_oldest_iff hin]
    refine ⟨fun h => hostHeld_of_neverHeld h s, ?_, ?_, ?_⟩
    · rintro a rfl
      simp [hostHeld]
    · rintro a v rfl
      simp [hostHeld]
    · rintro w rfl
      simp [hostHeld]
  · refine ⟨fun n hn => ?_, fun n hn => ?_, ?_, fun w => rfl, fun a ha => ?_, fun a ha => ?_, fun a v ha => ?_, fun a v ha => ?_⟩
    · obtain ⟨v, hv⟩ := Option.ne_none_iff_exists'.1 fun h => absurd ((csrFromHost_eq_none_iff s n).1 h) (Nat.not_lt.2 hn)
      exact ⟨v, hv, hostReadCsr_of_some (s := { s with hostIn := left }) hv⟩
    · have hnone : csrFromHost { s with hostIn := left } n = none := (csrFromHost_eq_none_iff _ n).2 hn
      exact ⟨_, by simp [hostStep, serveHost, hostReadCsr, hnone, answerHost]; rfl⟩
    · simp [hostStep, serveHost, answerHost]
    · simp [hostStep, serveHost, answerHost, hostReadDmem, ha]
    · simp [hostStep, serveHost, answerHost, hostReadDmem, Nat.not_lt.2 ha]
    · exact ⟨_, hostStep_writeDmem_of_lt ha v left, Memory.read_write_same _ _ _, fun b hb => Memory.read_write_other _ _ _ _ hb⟩
    · simp [hostStep, serveHost, hostWriteDmem, Nat.not_lt.2 ha]

/-! ### The CSRs -/

/-- Settles O15: the reset state is evaluated, register by register and CSR by CSR. -/
theorem resetState : Obligations.ResetState := by
  refine ⟨fun r => ?_, fun q => ?_, rfl, rfl, rfl, fun n h1 hn => ?_, rfl, rfl, rfl, fun m => ?_⟩
  · simp [State.sreg, State.reset, Vector.get_eq_getElem]
  · simp [State.qreg, State.reset, Vector.get_eq_getElem]
  · interval_cases n <;> rfl
  · simp [State.reset, MencResult.reset, Vector.get_eq_getElem]

/-- The bits of STATUS above BUSY and FAULT as a number (10_state.md R40). -/
def statusHigh (s : State) : Nat :=
  s.field.valid.toNat + 2 * s.synz.toNat + 4 * s.eucfail.toNat + 8 * dstatCode s.dstat

theorem statusHigh_lt (s : State) : statusHigh s < 32 := by
  have hd : dstatCode s.dstat ≤ 2 := by cases s.dstat <;> decide
  have := Bool.toNat_le s.field.valid
  have := Bool.toNat_le s.synz
  have := Bool.toNat_le s.eucfail
  unfold statusHigh
  omega

/-- Bits 1:0 of STATUS are BUSY and FAULT, the others those of `statusHigh` (10_state.md R40). -/
theorem statusWord_getLsbD_add_two (s : State) (busy fault : Bool) (k : Nat) :
    (statusWord s busy fault).getLsbD (k + 2) = (statusHigh s).testBit k := by
  have hlt := statusHigh_lt s
  have := Bool.toNat_le busy
  have := Bool.toNat_le fault
  have hsum : busy.toNat + 2 * fault.toNat + 4 * s.field.valid.toNat + 8 * s.synz.toNat + 16 * s.eucfail.toNat
      + 32 * dstatCode s.dstat = 2 ^ 2 * statusHigh s + (busy.toNat + 2 * fault.toNat) := by
    unfold statusHigh
    omega
  rw [statusWord, hsum, BitVec.getLsbD_ofNat, Nat.testBit_two_pow_mul_add _ (by omega), if_neg (by omega),
    Nat.add_sub_cancel]
  by_cases hk : k + 2 < 32
  · simp [hk]
  · rw [Nat.testBit_lt_two_pow (hlt.trans_le (Nat.pow_le_pow_right (by omega) (by omega) : 2 ^ 5 ≤ 2 ^ k))]
    simp

/-- Bits 6:2 of STATUS are FVALID, SYNZ, EUCFAIL and DSTAT, and the bits above read 0 (10_state.md R40). -/
theorem statusWord_high_bits (s : State) (busy fault : Bool) :
    (statusWord s busy fault).getLsbD 2 = s.field.valid ∧ (statusWord s busy fault).getLsbD 3 = s.synz ∧
    (statusWord s busy fault).getLsbD 4 = s.eucfail ∧
    (statusWord s busy fault).extractLsb' 5 2 = BitVec.ofNat 2 (dstatCode s.dstat) ∧
    ∀ k, 7 ≤ k → (statusWord s busy fault).getLsbD k = false := by
  have hd : dstatCode s.dstat ≤ 2 := by cases s.dstat <;> decide
  have hv := Bool.toNat_le s.field.valid
  have hz := Bool.toNat_le s.synz
  have he := Bool.toNat_le s.eucfail
  have hb := Bool.toNat_le busy
  have hf := Bool.toNat_le fault
  have hbit (k : Nat) (b : Bool) (h : statusHigh s / 2 ^ k % 2 = b.toNat) :
      (statusWord s busy fault).getLsbD (k + 2) = b := by
    rw [statusWord_getLsbD_add_two, Nat.testBit_eq_decide_div_mod_eq, h]
    cases b <;> rfl
  refine ⟨hbit 0 _ ?_, hbit 1 _ ?_, hbit 2 _ ?_, BitVec.eq_of_toNat_eq ?_, fun k hk => ?_⟩
  · simp only [statusHigh]
    omega
  · simp only [statusHigh]
    omega
  · simp only [statusHigh]
    omega
  · simp only [statusWord, BitVec.extractLsb'_toNat, BitVec.toNat_ofNat, Nat.shiftRight_eq_div_pow]
    omega
  · have hk2 : statusHigh s < 2 ^ (k - 2) :=
      (statusHigh_lt s).trans_le (Nat.pow_le_pow_right (by omega) (by omega) : 2 ^ 5 ≤ 2 ^ (k - 2))
    have := statusWord_getLsbD_add_two s busy fault (k - 2)
    rwa [Nat.sub_add_cancel (by omega), Nat.testBit_lt_two_pow hk2] at this

/-- A count below 2^13 reads as itself from its CSR (10_state.md R46, R47). -/
theorem count_csr {n : Nat} (h : n < 2 ^ 13) : (BitVec.ofNat 13 n).setWidth 32 = (BitVec.ofNat 32 n : Word) := by
  apply BitVec.eq_of_toNat_eq
  simp only [BitVec.toNat_setWidth, BitVec.toNat_ofNat]
  omega

/-- A flag reads as 0 or 1 from its CSR. -/
theorem flag_csr (b : Bool) : (BitVec.ofNat 32 b.toNat : Word) = if b then 1 else 0 := by
  cases b <;> rfl

/-- The CSR map reads the register the map names, whatever BUSY and FAULT are (10_state.md R38). -/
theorem csrValue_of_mem_csrTable {s : State} (busy fault : Bool) : ∀ e ∈ csrTable s,
    (e.1 = 0x009 → s.rbuf.length < 2 ^ 13) → (e.1 = 0x00D → s.stream.words.length < 2 ^ 13) →
    csrValue s busy fault e.1 = some e.2 ∧ e.1 ≤ 0x015 := by
  simp only [csrTable, List.forall_mem_cons, List.not_mem_nil, false_imp_iff, implies_true, and_true]
  and_intros <;> intro hr hb
  all_goals simp [csrValue, idWord, flag_csr, State.rcount, State.banw]
  · exact count_csr (hr trivial)
  · exact count_csr (hb trivial)

/-- The executor is FAULTED where its flag says so (10_state.md R36). -/
theorem executor_faulted_iff (s : State) : s.executor = .faulted ↔ s.faulted = true := by
  refine ⟨fun h => ?_, executor_of_faulted⟩
  by_contra hf
  rw [State.executor, if_neg hf] at h
  split at h <;> cases h

/-- Settles O19: RDCSR and the host read the same map, and only BUSY and FAULT of STATUS depend on who reads. -/
theorem csrReads : Obligations.CsrReads := by
  refine ⟨fun s rd n v h hr hb => ?_, fun s rd => ?_, fun s rd n hn => ?_, fun s k => ?_⟩
  · obtain ⟨hcmd, hn⟩ := csrValue_of_mem_csrTable true false (n, v) h hr hb
    obtain ⟨hhost, -⟩ := csrValue_of_mem_csrTable (s.executor == .busy) (s.executor == .faulted) (n, v) h hr hb
    refine ⟨exec_rdcsr_of_some ?_ rd, hhost⟩
    rwa [BitVec.toNat_ofNat, Nat.mod_eq_of_lt (by omega)]
  · exact ⟨_, rfl, exec_rdcsr_of_some rfl rd⟩
  · exact exec_of_failing (.inr ⟨Nat.not_le.2 hn, rfl⟩)
  · obtain ⟨h2, h3, h4, h5, h7⟩ := statusWord_high_bits s true false
    obtain ⟨h0, h1⟩ := statusWord_bits s true false
    obtain ⟨g0, g1⟩ := statusWord_bits s (s.executor == .busy) (s.executor == .faulted)
    refine ⟨_, _, rfl, rfl, h0, h1, g0.trans ?_, g1.trans ?_, h2, h3, h4, h5.trans ?_, h7 k, fun hk => ?_⟩
    · simp only [beq_eq_decide, executor_busy_iff]
    · simp only [beq_eq_decide, executor_faulted_iff, Bool.decide_eq_true]
    · cases s.dstat <;> rfl
    · obtain ⟨j, rfl⟩ := Nat.exists_eq_add_of_le' hk
      rw [statusWord_getLsbD_add_two, statusWord_getLsbD_add_two]

/-- Settles O53: nothing is configured, pending or written at reset. -/
theorem invariantAtReset : Obligations.InvariantAtReset where
  field := .inl rfl
  qregs := ⟨nofun, fun _ q => (resetState.2.1 q)⟩
  qfit q := by
    rw [resetState.2.1 q]
    decide
  rbuf := ⟨List.nodup_nil, nofun⟩
  stream := .inl rfl
  mem := ⟨rfl, rfl⟩
  fault := ⟨nofun, fun _ => rfl⟩
  fifo := Nat.zero_le _
  menc := ⟨by decide, by decide⟩

end Sys2Proof.Machine
end

section
/-! PROOF. What the commands leave unchanged (10_state.md R32, R34, 20_memory.md R82): each command writes through the state's
updates alone, so a part of the state that none of its updates touches is kept. -/

namespace Sys2Proof.Machine

/-! ### Updates a command uses -/

/-- A part `f` of the state is kept by a command's result where every kind of update the command uses keeps it. -/
theorem result_keeps {α : Type} (f : State → α) (i : Instr) (s : State)
    (hS : ∀ rd, scalarDest i = some rd → ∀ u v, f (State.setS u rd v) = f u := by intros; rfl)
    (hQ : ∀ q ∈ polyDests i, ∀ u p, f (State.setQ u q p) = f u := by intros; rfl)
    (hmem : storedBlock i s ≠ none → ∀ u m, f (State.setMem u m) = f u := by intros; rfl)
    (hfield : mnemonicOf i = "FCFG" → ∀ F u, f (commitField F u) = f u := by intros; rfl)
    (hrbuf : mnemonicOf i = "PZEROS" → ∀ u r, f (State.setRbuf u r) = f u := by intros; rfl)
    (hsynz : mnemonicOf i ∈ ["RSSYN", "RSDEC"] → ∀ u b, f (State.setSynz u b) = f u := by intros; rfl)
    (heuc : mnemonicOf i = "RSEUC" → ∀ u b, f (State.setEucfail u b) = f u := by intros; rfl)
    (hdstat : mnemonicOf i = "RSDEC" → ∀ u d, f (State.setDstat u d) = f u := by intros; rfl)
    (hdnfix : mnemonicOf i ∈ ["RSFIX", "RSDEC"] → ∀ u n, f (State.setDnfix u n) = f u := by intros; rfl)
    (hstream : mnemonicOf i ∈ ["BAINIT", "BAAPP", "BAPAD", "MENC"] → ∀ u b, f (State.setStream u b) = f u := by
      intros; rfl)
    (hmenc : mnemonicOf i = "MENC" → ∀ u r, f (State.setMenc u r) = f u := by intros; rfl) :
    f (result i s) = f s := by
  cases i <;> simp only [result, setElem_eq, setCount_eq]
  case rseuc =>
    cases euclid s.field _ _ with
    | none => exact heuc rfl _ _
    | some d =>
      exact (heuc rfl _ _).trans ((hQ _ (by simp [polyDests]) _ _).trans (hQ _ (by simp [polyDests]) _ _))
  case rsdec =>
    have hflags (u : State) (b : Bool) : f (u.setSynz b) = f u := hsynz (by simp [mnemonicOf]) u b
    split
    · exact (hS _ rfl _ _).trans ((hdnfix (by simp [mnemonicOf]) _ _).trans ((hdstat rfl _ _).trans (hflags _ _)))
    · cases euclid s.field _ _ with
      | none => exact (hS _ rfl _ _).trans ((hdnfix (by simp [mnemonicOf]) _ _).trans ((hdstat rfl _ _).trans (hflags _ _)))
      | some d =>
        exact (hS _ rfl _ _).trans ((hdnfix (by simp [mnemonicOf]) _ _).trans ((hdstat rfl _ _).trans
          ((hmem (by simp [storedBlock]) _ _).trans (hflags _ _))))
  case li | lih | mov | ldw | rdcsr | gadd | gmul | ginv | gdiv | gexp | glog | peval | pdeg | plead | pconst | pcoef | mslot =>
    exact hS _ rfl _ _
  case stw | rsenc => exact hmem (by simp [storedBlock]) _ _
  case fcfg => exact hfield rfl _ _
  case pzero | pone | pmono | padd | pmul | pscal | pshift | pcopy | pld | rsgen => exact hQ _ (by simp [polyDests]) _ _
  case pst | rbst | bast => exact (hS _ rfl _ _).trans (hmem (by simp [storedBlock]) _ _)
  case pzeros => exact (hS _ rfl _ _).trans (hrbuf rfl _ _)
  case rssyn => exact (hsynz (by simp [mnemonicOf]) _ _).trans (hQ _ (by simp [polyDests]) _ _)
  case rsfix =>
    exact (hS _ rfl _ _).trans ((hdnfix (by simp [mnemonicOf]) _ _).trans (hmem (by simp [storedBlock]) _ _))
  case bainit | baapp | bapad => exact hstream (by simp [mnemonicOf]) _ _
  case menc => exact (hS _ rfl _ _).trans ((hmenc rfl _ _).trans (hstream (by simp [mnemonicOf]) _ _))

/-- A part of the state that neither the result of a command nor its fault touches, and no recording, is kept. -/
theorem exec_keeps {α : Type} (f : State → α) {i : Instr} {s t : State} (h : exec i s = .next t)
    (hres : f (result i s) = f s)
    (hfield : mnemonicOf i = "FCFG" → f (commitField FieldCfg.none s) = f s := by intros; rfl)
    (hretire : ∀ u, f (retire u) = f u := by intros; rfl)
    (hfault : ∀ w c u, f (takeFault w c u) = f u := by intros; rfl) : f t = f s := by
  have hleft : f (leftByFault i s) = f s := by
    cases i
    case fcfg => exact hfield rfl
    all_goals rfl
  exact exec_induction (P := fun t => f t = f s) h (fun _ => (hretire _).trans hres) fun _ _ => (hfault _ _ _).trans hleft

/-! ### The parts of the state -/

section
variable {i : Instr} {s t : State} (h : exec i s = .next t)
include h

/-- Only the destination of a command changes among the scalar registers (10_state.md R32). -/
theorem exec_sreg {r : SReg} (hr : scalarDest i ≠ some r) : t.sreg r = s.sreg r :=
  exec_keeps (·.sreg r) h (result_keeps (·.sreg r) i s (hS := fun rd hrd u v =>
    sreg_setS_other u rd r v fun e => hr (e ▸ hrd)))

/-- Only the destinations of a command change among the polynomial registers, FCFG apart (10_state.md R34). -/
theorem exec_qreg {q : QReg} (hq : q ∉ polyDests i) (hi : mnemonicOf i ≠ "FCFG") : t.qreg q = s.qreg q :=
  exec_keeps (·.qreg q) h (result_keeps (·.qreg q) i s (hQ := fun qd hqd u p =>
    qreg_setQ_other u qd q p fun e => hq (e ▸ hqd)) (hfield := fun e => absurd e hi)) fun e => absurd e hi

theorem exec_field (hi : mnemonicOf i ≠ "FCFG") : t.field = s.field :=
  exec_keeps (·.field) h (result_keeps (·.field) i s (hfield := fun e => absurd e hi)) fun e => absurd e hi

theorem exec_rbuf (hi : mnemonicOf i ∉ ["FCFG", "PZEROS"]) : t.rbuf = s.rbuf := by
  have hf : mnemonicOf i ≠ "FCFG" := fun e => hi (by simp [e])
  have hz : mnemonicOf i ≠ "PZEROS" := fun e => hi (by simp [e])
  exact exec_keeps (·.rbuf) h (result_keeps (·.rbuf) i s (hfield := fun e => absurd e hf) (hrbuf := fun e => absurd e hz)) fun e => absurd e hf

theorem exec_synz (hi : mnemonicOf i ∉ ["RSSYN", "RSDEC"]) : t.synz = s.synz :=
  exec_keeps (·.synz) h (result_keeps (·.synz) i s (hsynz := fun e => absurd e hi))

theorem exec_dstat (hi : mnemonicOf i ≠ "RSDEC") : t.dstat = s.dstat :=
  exec_keeps (·.dstat) h (result_keeps (·.dstat) i s (hdstat := fun e => absurd e hi))

theorem exec_dnfix (hi : mnemonicOf i ∉ ["RSFIX", "RSDEC"]) : t.dnfix = s.dnfix :=
  exec_keeps (·.dnfix) h (result_keeps (·.dnfix) i s (hdnfix := fun e => absurd e hi))

theorem exec_stream (hi : mnemonicOf i ∉ ["BAINIT", "BAAPP", "BAPAD", "MENC"]) : t.stream = s.stream :=
  exec_keeps (·.stream) h (result_keeps (·.stream) i s (hstream := fun e => absurd e hi))

theorem exec_menc (hi : mnemonicOf i ≠ "MENC") : t.menc = s.menc :=
  exec_keeps (·.menc) h (result_keeps (·.menc) i s (hmenc := fun e => absurd e hi))

/-- A command that stores no block leaves DMEM (20_memory.md R92). -/
theorem exec_dmem (hi : storedBlock i s = none) : t.dmem = s.dmem :=
  exec_keeps (·.dmem) h (result_keeps (·.dmem) i s (hmem := fun e => absurd hi e))

end

/-! ### The block a command stores -/

/-- A pass of RSENC's loop keeps the length of the parity buffer (43_rs_encoder.md R234). -/
theorem length_parityStep (F : FieldCfg) (g : Poly) (buf : List Elem) (v : Elem) (h : buf.length = deg g) :
    (parityStep F g buf v).length = deg g := by
  cases buf with
  | nil => exact h
  | cons b rest =>
    have hg : g.tail.length = rest.length + 1 := by rw [List.length_tail]; exact h.symm
    unfold parityStep
    dsimp only
    split <;> simp [hg, ← h]

/-- The parity of a message is as long as the generator's degree (43_rs_encoder.md R234). -/
@[simp] theorem length_parity (F : FieldCfg) (g : Poly) (m : List Elem) : (parity F g m).length = deg g := by
  unfold parity
  generalize hb : List.replicate (deg g) (0 : Elem) = buf
  have hlen : buf.length = deg g := by simp [← hb]
  clear hb
  induction m generalizing buf with
  | nil => exact hlen
  | cons v m ih => exact ih _ (length_parityStep F g buf v hlen)

/-- Correction keeps the length of the word (44_rs_decoder.md R270). -/
@[simp] theorem length_fixLoop (F : FieldCfg) (omega : Poly) (X : List Elem) (k : Nat) (roots w : List Elem) (cnt : Nat) :
    (fixLoop F omega X k roots w cnt).1.length = w.length := by
  induction roots generalizing k w cnt with
  | nil => rfl
  | cons r roots ih =>
    unfold fixLoop
    dsimp only
    split <;> simp [ih]

@[simp] theorem length_fixWord (F : FieldCfg) (omega : Poly) (roots w : List Elem) :
    (fixWord F omega roots w).1.length = w.length :=
  length_fixLoop F omega _ 0 roots w 0

@[simp] theorem length_blockElems (s : State) (a n : Nat) : (blockElems s a n).length = n := by
  simp [blockElems]

/-- A result changes DMEM only by the words of the command's block (20_memory.md R82). -/
theorem result_dmem {i : Instr} {s : State} {a n : Nat} (h : storedBlock i s = some (a, n)) :
    (result i s).dmem = s.dmem ∨ ∃ ws, ws.length = n ∧ (result i s).dmem = Memory.writeBlock s.dmem a ws := by
  cases i <;> cases h
  case stw => exact .inr ⟨[_], rfl, rfl⟩
  case pst => exact .inr ⟨_, by simp, rfl⟩
  case rsenc => exact .inr ⟨_, by simp, rfl⟩
  case rsfix => exact .inr ⟨_, by simp, rfl⟩
  case rsdec => 
    simp only [result]
    split
    · exact .inl rfl
    · cases euclid s.field _ _ with
      | none => exact .inl rfl
      | some d => exact .inr ⟨_, by simp, rfl⟩
  case rbst => exact .inr ⟨_, by simp [State.rcount], rfl⟩
  case bast => exact .inr ⟨_, rfl, rfl⟩

/-- A storing command that retires stores into DMEM (20_memory.md R82). -/
theorem blockInRange_of_checks {i : Instr} {s : State} {a n : Nat} (h : storedBlock i s = some (a, n))
    (hc : FirstFailing (checksOf i s) none) : blockInRange s a n := by
  rw [firstFailing_none_iff] at hc
  cases i <;> cases h
  case stw => exact .inr (hc _ (List.mem_singleton_self _))
  all_goals exact hc (blockCheck s _ _) (by simp [checksOf, State.rcount, State.banw])

/-- A command leaves every word outside the block it stores (20_memory.md R82, R92). -/
theorem exec_read {i : Instr} {s t : State} {a n b : Nat} (hb : storedBlock i s = some (a, n)) (h : exec i s = .next t)
    (hout : b < a ∨ a + n ≤ b) : Memory.read t.dmem b = Memory.read s.dmem b := by
  refine exec_keeps (fun u => Memory.read u.dmem b) h ?_
  rcases result_dmem hb with hd | ⟨ws, rfl, hd⟩
  · rw [hd]
  · rw [hd, Memory.read_writeBlock_outside _ _ _ _ hout]

/-! ### The frames -/

/-- The commands that change something other than a scalar register and what their frame lists, by mnemonic. -/
def unitMnemonics : List String :=
  ["FCFG", "PZEROS", "RSSYN", "RSEUC", "RSFIX", "RSDEC", "BAINIT", "BAAPP", "BAPAD", "MENC"]

/-- A command that writes a scalar register only writes no polynomial register, no block and no unit. -/
theorem scalarCommand_writes {i : Instr} (hi : isScalarCommand i = true) (s : State) :
    polyDests i = [] ∧ storedBlock i s = none ∧ mnemonicOf i ∉ unitMnemonics := by
  cases i <;> simp_all [isScalarCommand, mnemonicOf, polyDests, storedBlock, unitMnemonics]

/-- Settles O47: such a command's result writes its destination and nothing else. -/
theorem scalarCommandFrame : Obligations.ScalarCommandFrame := by
  intro i s t hi h
  obtain ⟨hpoly, hblock, hunit⟩ := scalarCommand_writes hi s
  simp only [unitMnemonics, List.mem_cons, List.not_mem_nil, or_false, not_or] at hunit
  obtain ⟨hfcfg, hpz, hsyn, heuc, hfix, hdec, hini, happ, hpad, hmenc⟩ := hunit
  exact ⟨fun r => exec_sreg h, fun q => exec_qreg h (by simp [hpoly]) hfcfg, exec_field h hfcfg, exec_rbuf h (by simp [*]),
    exec_synz h (by simp [*]), exec_eucfail_of_ne_rseuc heuc h, exec_dstat h hdec, exec_stream h (by simp [*]),
    exec_dnfix h (by simp [*]), exec_menc h hmenc, fun a => by rw [exec_dmem h hblock], (exec_endsFrom h).endsCommand⟩

/-- A command that writes polynomial registers, FCFG apart, writes no scalar register and no block, and no unit but SYNZ and
EUCFAIL. -/
theorem polyCommand_writes {i : Instr} (hi : polyDests i ≠ []) (s : State) :
    scalarDest i = none ∧ storedBlock i s = none ∧
      mnemonicOf i ∉ ["FCFG", "PZEROS", "RSFIX", "RSDEC", "BAINIT", "BAAPP", "BAPAD", "MENC"] := by
  cases i <;> simp_all [scalarDest, polyDests, storedBlock, mnemonicOf]

/-- Settles O48: such a command writes its destinations, and RSSYN and RSEUC one flag each. -/
theorem polyCommandFrame : Obligations.PolyCommandFrame := by
  intro i s t hi h
  obtain ⟨hdest, hblock, hunit⟩ := polyCommand_writes hi s
  simp only [List.mem_cons, List.not_mem_nil, or_false, not_or] at hunit
  obtain ⟨hfcfg, hpz, hfix, hdec, hini, happ, hpad, hmenc⟩ := hunit
  exact ⟨fun r => exec_sreg h (by simp [hdest]), fun q hq => exec_qreg h hq hfcfg, exec_field h hfcfg,
    exec_rbuf h (by simp [*]), fun hsyn => exec_synz h (by simp [*]), fun heuc => exec_eucfail_of_ne_rseuc heuc h,
    exec_dstat h hdec, exec_stream h (by simp [*]), exec_dnfix h (by simp [*]), exec_menc h hmenc,
    fun a => by rw [exec_dmem h hblock], (exec_endsFrom h).endsCommand⟩

/-- A command that stores a block writes no polynomial register, and no unit but those of the decoder. -/
theorem storeCommand_writes {i : Instr} {s : State} {b : Nat × Nat} (hb : storedBlock i s = some b) :
    polyDests i = [] ∧
      mnemonicOf i ∉ ["FCFG", "PZEROS", "RSSYN", "RSEUC", "BAINIT", "BAAPP", "BAPAD", "MENC"] := by
  cases i <;> simp_all [polyDests, storedBlock, mnemonicOf]

/-- Settles O49: such a command writes the words of its block, its destination and the flags of the decoder. -/
theorem storeCommandFrame : Obligations.StoreCommandFrame := by
  intro i s t a n hb h
  obtain ⟨hpoly, hunit⟩ := storeCommand_writes hb
  simp only [List.mem_cons, List.not_mem_nil, or_false, not_or] at hunit
  obtain ⟨hfcfg, hpz, hsyn, heuc, hini, happ, hpad, hmenc⟩ := hunit
  exact ⟨fun b => exec_read hb h, fun r => exec_sreg h, fun q => exec_qreg h (by simp [hpoly]) hfcfg, exec_field h hfcfg,
    exec_rbuf h (by simp [*]), exec_eucfail_of_ne_rseuc heuc h, exec_stream h (by simp [*]), exec_menc h hmenc,
    fun hdec => ⟨exec_synz h (by simp [*]), exec_dstat h hdec⟩, fun hdec hfix => exec_dnfix h (by simp [*]),
    (exec_endsFrom h).endsCommand⟩

/-- The bit-stream commands but BAST write no register and no block. -/
theorem streamCommand_writes {i : Instr} (hi : mnemonicOf i ∈ ["BAINIT", "BAAPP", "BAPAD"]) (s : State) :
    scalarDest i = none ∧ polyDests i = [] ∧ storedBlock i s = none ∧
      mnemonicOf i ∉ ["FCFG", "PZEROS", "RSSYN", "RSEUC", "RSFIX", "RSDEC", "MENC"] := by
  cases i <;> simp_all [scalarDest, polyDests, storedBlock, mnemonicOf]

/-- Settles O50: such a command writes the stream, and only MENC does so besides. -/
theorem streamCommandFrame : Obligations.StreamCommandFrame := by
  refine ⟨fun i s t hi h => ?_, fun i s t hi h => exec_stream h hi⟩
  obtain ⟨hdest, hpoly, hblock, hunit⟩ := streamCommand_writes hi s
  simp only [List.mem_cons, List.not_mem_nil, or_false, not_or] at hunit
  obtain ⟨hfcfg, hpz, hsyn, heuc, hfix, hdec, hmenc⟩ := hunit
  exact ⟨fun r => exec_sreg h (by simp [hdest]), fun q => exec_qreg h (by simp [hpoly]) hfcfg, exec_field h hfcfg,
    exec_rbuf h (by simp [*]), exec_synz h (by simp [*]), exec_eucfail_of_ne_rseuc heuc h, exec_dstat h hdec,
    exec_dnfix h (by simp [*]), exec_menc h hmenc, fun a => by rw [exec_dmem h hblock], (exec_endsFrom h).endsCommand⟩

/-- FCFG, PZEROS and MENC write no block and, as operands, no polynomial register. -/
theorem unitCommand_writes {i : Instr} (hi : mnemonicOf i ∈ ["FCFG", "PZEROS", "MENC"]) (s : State) :
    polyDests i = [] ∧ storedBlock i s = none ∧
      mnemonicOf i ∉ ["RSSYN", "RSEUC", "RSFIX", "RSDEC", "BAINIT", "BAAPP", "BAPAD"] := by
  cases i <;> simp_all [polyDests, storedBlock, mnemonicOf]

/-- Settles O51: each writes its own unit and its destination. -/
theorem unitCommandFrame : Obligations.UnitCommandFrame := by
  intro i s t hi h
  obtain ⟨hpoly, hblock, hunit⟩ := unitCommand_writes hi s
  simp only [List.mem_cons, List.not_mem_nil, or_false, not_or] at hunit
  obtain ⟨hsyn, heuc, hfix, hdec, hini, happ, hpad⟩ := hunit
  exact ⟨fun r => exec_sreg h, fun hfcfg => ⟨exec_field h hfcfg, fun q => exec_qreg h (by simp [hpoly]) hfcfg⟩,
    fun hm => exec_rbuf h (by simp [hm]), fun hmenc => ⟨exec_stream h (by simp [*]), exec_menc h hmenc⟩,
    exec_synz h (by simp [*]), exec_eucfail_of_ne_rseuc heuc h, exec_dstat h hdec, exec_dnfix h (by simp [*]),
    fun a => by rw [exec_dmem h hblock], (exec_endsFrom h).endsCommand⟩

/-- Field a of a format R word (30_encoding.md R101). -/
theorem field_a_packR {op a b c d imm : Nat} (ha : a < 16) (hb : b < 16) (hc : c < 16) (hd : d < 16)
    (hi : imm < 1024) : field (packR op a b c d imm) 22 4 = a := by
  simp only [field, packR, BitVec.toNat_ofNat]
  omega

/-- Field a of a format I word (30_encoding.md R102). -/
theorem field_a_packI {op a imm16 : Nat} (ha : a < 16) (hi : imm16 < 65536) : field (packI op a imm16) 22 4 = a := by
  simp only [field, packI, BitVec.toNat_ofNat]
  omega

/-- Field a of a command names its scalar destination (10_state.md R32). -/
theorem field_a_of_scalarDest {i : Instr} {r : SReg} (h : scalarDest i = some r) : field (encode i) 22 4 = r := by
  cases i <;> cases h
  case li imm | lih imm => exact field_a_packI r.isLt imm.isLt
  case rdcsr csr => exact field_a_packR r.isLt (by omega) (by omega) (by omega) csr.isLt
  all_goals exact field_a_packR r.isLt (by omega) (by omega) (by omega) (by omega)

theorem sreg_leftByFault (i : Instr) (s : State) (r : SReg) : (leftByFault i s).sreg r = s.sreg r := by
  cases i <;> rfl

/-- Settles O52: a fault leaves the scalar registers, and a result changes the destination alone. -/
theorem scalarWriters : Obligations.ScalarWriters := by
  intro i s t r h hne
  have hdest : scalarDest i = some r := by
    by_contra hr
    exact hne (exec_sreg h hr)
  have hmem : mnemonicOf i ∈ ["LI", "LIH", "MOV", "LDW", "RDCSR", "GADD", "GMUL", "GINV", "GDIV", "GEXP", "GLOG", "PEVAL",
      "PDEG", "PLEAD", "PCONST", "PCOEF", "PST", "PZEROS", "RBST", "RSFIX", "RSDEC", "BAST", "MENC", "MSLOT"] := by
    cases i <;> simp_all [scalarDest, mnemonicOf]
  have hretired : t.cmdcnt = s.cmdcnt + 1 ∧ t.faulted = s.faulted := by
    obtain ⟨-, he⟩ | ⟨c, -, he⟩ := exec_cases i s <;> cases he.symm.trans h
    · have hcontrol := control_result i s
      exact ⟨congrArg (·.cmdcnt + 1) hcontrol, congrArg (·.faulted) hcontrol⟩
    · exact absurd (sreg_leftByFault i s r) hne
  exact ⟨hdest, field_a_of_scalarDest hdest, hretired.1, hretired.2, hmem⟩

end Sys2Proof.Machine
end

section
/-! PROOF. What every step keeps: an induction over the ways a step can change the state, DMEM (20_memory.md R80), and the fault
registers and the FIFO (10_state.md R36, R41). -/

namespace Sys2Proof.Machine

/-! ### The data of the state -/

/-- The state less its control: the registers, the units, DMEM and the parameters. -/
structure Data where
  sregs : Vector Word 16
  qregs : Vector Poly 8
  field : FieldCfg
  rbuf : List Elem
  synz : Bool
  eucfail : Bool
  dstat : DStat
  stream : BitStream
  dnfix : BitVec 13
  menc : MencResult
  dmem : Memory
  cfg : Config

/-- The data of a state. -/
def State.data (s : State) : Data :=
  ⟨s.sregs, s.qregs, s.field, s.rbuf, s.synz, s.eucfail, s.dstat, s.stream, s.dnfix, s.menc, s.dmem, s.cfg⟩

/-- What a property of the data needs for every step to keep it: the results of commands whose checks hold keep it, and so do
the loss of the field by a failing FCFG, the soft reset and a host write of a DMEM word. -/
structure KeptByUpdates (P : State → Prop) : Prop where
  data : ∀ {u v : State}, v.data = u.data → P u → P v
  result : ∀ (i : Instr) (u : State), P u → FirstFailing (checksOf i u) none → P (result i u)
  noField : ∀ u, P u → P (commitField FieldCfg.none u)
  reset : ∀ u, P u → P (softReset u)
  write : ∀ u a v, a < u.cfg.dmemWords → P u → P (u.setMem (Memory.write u.dmem a v))

section
variable {P : State → Prop} (hP : KeptByUpdates P) {s t : State}
include hP

/-- A command keeps such a property. -/
theorem KeptByUpdates.exec {i : Instr} (hs : P s) (h : exec i s = .next t) : P t := by
  refine exec_induction h (fun hc => hP.data (u := Machine.result i s) rfl (hP.result i s hs hc)) fun c _ =>
    hP.data (u := leftByFault i s) rfl ?_
  cases i
  case fcfg => exact hP.noField s hs
  all_goals exact hs

/-- Running a word keeps such a property. -/
theorem KeptByUpdates.runWord {w : Word} (hs : P s) (h : runWord w s = .next t) : P t := by
  obtain ⟨i, -, hrun⟩ | ⟨e, -, hrun⟩ := runWord_cases w s
  · exact hP.exec hs (hrun.symm.trans h)
  · cases hrun.symm.trans h
    exact hP.data (u := s) rfl hs

/-- A host operation keeps such a property. -/
theorem KeptByUpdates.serveHost (op : HostOp) (hs : P s) : P (serveHost op s) := by
  cases op with
  | writeCtrl v =>
    simp only [Machine.serveHost, writeCtrl]
    split
    · exact hP.reset s hs
    · split
      · rcases clearFault_cases s with ⟨hc, -⟩ | ⟨hc, -⟩ <;> rw [hc]
        · exact hs
        · exact hP.data (u := s) rfl hs
      · exact hs
  | readCsr n =>
    simp only [Machine.serveHost, hostReadCsr]
    split <;> exact hP.data (u := s) rfl hs
  | writeDmem a v =>
    simp only [Machine.serveHost, hostWriteDmem]
    split
    · exact hP.write s a v ‹_› hs
    · exact hs
  | pushCmd w => exact hP.data (u := s) rfl hs
  | readDmem a => exact hP.data (u := s) rfl hs
  | readCmd => exact hP.data (u := s) rfl hs
  | readCtrl => exact hP.data (u := s) rfl hs

/-- Every step keeps such a property. -/
theorem KeptByUpdates.step (hs : P s) (h : step s = .next t) : P t := by
  rcases step_cases s with ⟨-, -, he⟩ | ⟨op, rest, k, -, he⟩ | ⟨w, rest, k, -, -, -, he⟩ | ⟨w, k, -, -, he⟩ |
    ⟨w, rest, k, -, -, -, he⟩ <;> rw [he] at h
  · cases h
    exact hs
  · cases h
    exact hP.serveHost op (hP.data (u := s) rfl hs)
  · cases h
    exact hP.data (u := s) rfl hs
  · refine hP.runWord ?_ h
    exact hP.data (u := s) rfl hs
  · refine hP.runWord ?_ h
    exact hP.data (u := s) rfl hs

end

/-! ### DMEM -/

/-- MemOk depends on DMEM and the parameters alone. -/
theorem memOk_congr {u v : State} (h : v.data = u.data) (hu : MemOk u) : MemOk v := by
  have hd : v.dmem = u.dmem := congrArg Data.dmem h
  have hc : v.cfg = u.cfg := congrArg Data.cfg h
  rwa [MemOk, hd, hc]

/-- A result keeps DMEM canonical and within its addresses: it writes a block in range, or nothing. -/
theorem memOk_result (i : Instr) (s : State) (hs : MemOk s) (hc : FirstFailing (checksOf i s) none) :
    MemOk (result i s) := by
  have hcfg : (result i s).cfg = s.cfg := congrArg Control.cfg (control_result i s)
  cases hb : storedBlock i s with
  | none =>
    have hd : (result i s).dmem = s.dmem := result_keeps (·.dmem) i s (hmem := fun e => absurd hb e)
    rwa [MemOk, hd, hcfg]
  | some b =>
    obtain ⟨hwf, hin⟩ := hs
    rcases result_dmem hb with hd | ⟨ws, hlen, hd⟩
    · rw [MemOk, hd, hcfg]
      exact ⟨hwf, hin⟩
    · rw [MemOk, hd, hcfg]
      have hrange : ws = [] ∨ b.1 + ws.length ≤ s.cfg.dmemWords := by
        rw [← List.length_eq_zero_iff, hlen]
        exact blockInRange_of_checks hb hc
      exact ⟨Memory.wf_writeBlock _ _ _ hwf, Memory.within_writeBlock _ _ _ _ hrange hin⟩

theorem memOk_kept : KeptByUpdates MemOk where
  data := memOk_congr
  result := memOk_result
  noField _ h := h
  reset _ h := h
  write _ _ _ ha h := ⟨Memory.wf_write _ _ _ h.1, Memory.within_write _ _ _ _ ha h.2⟩

/-- Settles O54: commands write blocks in range, and the host a word in range. -/
theorem stepKeepsMemory : Obligations.StepKeepsMemory :=
  fun _ _ hs h => memOk_kept.step hs h

/-! ### The fault registers and the FIFO -/

/-- A push that can complete finds room in the FIFO (20_memory.md R86). -/
theorem fifo_lt_of_hostReady_push {s : State} {w : Word} {rest : List HostOp}
    (h : hostReady s = some (.pushCmd w, rest)) : s.fifo.length < s.cfg.cmdqDepth := by
  unfold hostReady at h
  split at h
  · cases h
  next op ops hin =>
    split at h
    · obtain ⟨r, hr, hop⟩ := Option.map_eq_some_iff.1 h
      simp only [Prod.mk.injEq] at hop
      have hnever := neverHeld_of_take hr
      rw [hop.1] at hnever
      cases hnever
    next hheld =>
      cases h
      simpa [hostHeld] using hheld

/-- The part of the invariant about control: CAUSE and FAULTED, the FIFO, and the parameters `c`. -/
def ControlOk (c : Config) (s : State) : Prop :=
  FaultOk s ∧ FifoOk s ∧ s.cfg = c

/-- The fault registers and the FIFO are control. -/
theorem controlOk_congr {c : Config} {u v : State} (h : v.control = u.control) (hu : ControlOk c u) : ControlOk c v := by
  simp only [State.control, Control.mk.injEq] at h
  simp only [ControlOk, FaultOk, FifoOk, h]
  exact hu

/-- Retirement leaves the fault registers and the FIFO. -/
theorem controlOk_retire {c : Config} {s : State} (hs : ControlOk c s) : ControlOk c (retire s) :=
  hs

/-- Taking a fault while no command executes leaves the control registers well formed. -/
theorem controlOk_takeFault {c : Config} {s : State} (hs : ControlOk c s) (hr : s.running = none) (w : Word) (d : Cause) :
    ControlOk c (takeFault w d s) :=
  ⟨⟨fun _ => ⟨hr, d, rfl⟩, nofun⟩, hs.2⟩

/-- A word that ends leaves the control registers well formed, where no other is executing. -/
theorem controlOk_runWord {c : Config} {w : Word} {s t : State} (hs : ControlOk c s) (hr : s.running = none)
    (h : runWord w s = .next t) : ControlOk c t := by
  obtain ⟨i, -, hrun⟩ | ⟨e, -, hrun⟩ := runWord_cases w s
  · cases exec_endsFrom (hrun.symm.trans h) with
    | @retired u hu => exact controlOk_retire (controlOk_congr hu hs)
    | @faulted u hu d => exact controlOk_takeFault (controlOk_congr hu hs) ((congrArg Control.running hu).trans hr) _ d
  · cases hrun.symm.trans h
    exact controlOk_takeFault hs hr w _

/-- A host operation that can complete leaves the control registers well formed. -/
theorem controlOk_serveHost {c : Config} {op : HostOp} {s : State} (hs : ControlOk c s)
    (hop : ∀ w, op = .pushCmd w → s.fifo.length < s.cfg.cmdqDepth) : ControlOk c (serveHost op s) := by
  obtain ⟨hfault, hfifo, hcfg⟩ := hs
  cases op with
  | pushCmd w => exact ⟨hfault, by simpa [serveHost, FifoOk] using hop w rfl, hcfg⟩
  | writeCtrl v =>
    simp only [serveHost, writeCtrl]
    split
    · exact ⟨⟨nofun, fun _ => rfl⟩, Nat.zero_le _, hcfg⟩
    · split
      · rcases clearFault_cases s with ⟨he, -⟩ | ⟨he, -⟩ <;> rw [he]
        · exact ⟨hfault, hfifo, hcfg⟩
        · exact ⟨⟨nofun, fun _ => rfl⟩, hfifo, hcfg⟩
      · exact ⟨hfault, hfifo, hcfg⟩
  | readCsr n =>
    simp only [serveHost, hostReadCsr]
    split <;> exact ⟨hfault, hfifo, hcfg⟩
  | writeDmem a v =>
    simp only [serveHost, hostWriteDmem]
    split <;> exact ⟨hfault, hfifo, hcfg⟩
  | readDmem a => exact ⟨hfault, hfifo, hcfg⟩
  | readCmd => exact ⟨hfault, hfifo, hcfg⟩
  | readCtrl => exact ⟨hfault, hfifo, hcfg⟩

/-- Leaving the executing word, or taking the oldest of the FIFO, leaves the control registers well formed while BUSY. -/
theorem controlOk_taken {s : State} (hs : ControlOk s.cfg s) (hb : s.executor = .busy) (k : Nat) (running : Option Word)
    {fifo : List Word} (hq : fifo.length ≤ s.fifo.length) :
    ControlOk s.cfg { drawn k s with running := running, fifo := fifo } := by
  obtain ⟨hf, -⟩ := (executor_busy_iff s).1 hb
  exact ⟨⟨fun h => by simp [drawn, hf] at h, hs.1.2⟩, hq.trans hs.2.1, rfl⟩

/-- Settles O55: a fault is taken while no command executes, a push while there is room, and every other step leaves the fault
registers or clears them. -/
theorem stepKeepsFaultAndFifo : Obligations.StepKeepsFaultAndFifo := by
  intro s t hfault hfifo h
  change ControlOk s.cfg t
  have hs : ControlOk s.cfg s := ⟨hfault, hfifo, rfl⟩
  rcases step_cases s with ⟨-, -, he⟩ | ⟨op, rest, k, hready, he⟩ | ⟨w, rest, k, hb, -, hq, he⟩ | ⟨w, k, hb, -, he⟩ |
    ⟨w, rest, k, hb, hr, hq, he⟩ <;> rw [he] at h
  · cases h
    exact hs
  · cases h
    refine controlOk_serveHost (s := { drawn k s with hostIn := rest }) hs ?_
    rintro w rfl
    simpa [drawn] using fifo_lt_of_hostReady_push hready
  · cases h
    exact controlOk_taken hs hb k (some w) (by simp [hq])
  · exact controlOk_runWord (controlOk_taken hs hb k none le_rfl) rfl h
  · exact controlOk_runWord (s := { drawn k s with fifo := rest })
      (by simpa [drawn, hr] using controlOk_taken hs hb k none (fifo := rest) (by simp [hq])) hr h

end Sys2Proof.Machine
end

section
/-! PROOF. The values of the support, transfer and field commands (40_support.md R133 to R135, 41_field.md R150 to R164,
42_polynomial.md R184 to R198, 44_rs_decoder.md R275). -/

namespace Sys2Proof.Machine

/-! ### Moves, loads and stores -/

/-- Settles O18: the address check alone decides, and a store is a write of the low half. -/
theorem moveLoadStore : Obligations.MoveLoadStore := by
  intro s r ra
  refine ⟨rfl, fun ha => ⟨exec_of_checks (.inl ⟨ha, rfl⟩), _, exec_of_checks (.inl ⟨ha, rfl⟩), ?_, fun a hne =>
    Memory.read_write_other _ _ _ _ hne⟩, fun ha => ⟨exec_of_failing (.inr ⟨Nat.not_lt.2 ha, rfl⟩),
    exec_of_failing (.inr ⟨Nat.not_lt.2 ha, rfl⟩)⟩⟩
  rw [Memory.read_write_same, BitVec.setWidth_eq_extractLsb' (by decide)]

/-- Settles O24: PMONO's degree is checked where its coefficient is not 0. -/
theorem polyFactories : Obligations.PolyFactories := by
  intro s qd qs rdeg rk hv
  refine ⟨exec_of_checks (.inl ⟨hv, rfl⟩), exec_of_checks (.inl ⟨hv, rfl⟩), exec_of_checks (.inl ⟨hv, rfl⟩),
    fun hk h0 => ?_, fun hk h0 hd => ?_, fun hk h0 hd => ?_⟩
  · have he : elemOf (s.sreg rk) = 0 := by rw [h0]; rfl
    rw [exec_of_checks (i := .pmono qd rdeg rk) (.inl ⟨hv, .inl ⟨hk, .inl ⟨.inl he, rfl⟩⟩⟩), result, he, pmono_zero]
  · rw [exec_of_checks (i := .pmono qd rdeg rk) (.inl ⟨hv, .inl ⟨hk, .inl ⟨.inr hd, rfl⟩⟩⟩), result, pmono_of_ne _ _ h0]
  · exact exec_of_failing (.inl ⟨hv, .inl ⟨hk, .inr ⟨not_or.2 ⟨h0, Nat.not_lt.2 hd⟩, rfl⟩⟩⟩)

/-- A sequence in normal form is its own normal form (42_polynomial.md R182). -/
theorem norm_of_polyOk {F : FieldCfg} {p : Poly} (h : PolyOk F p) : norm p = p := by
  obtain ⟨hne, hlead, -⟩ := h
  cases p with
  | nil => exact absurd rfl hne
  | cons x rest =>
    rcases hlead with hx | hz
    · exact norm_cons_of_ne x rest hx
    · rw [hz]
      rfl

/-- An element read back from a DMEM word it was stored to (20_memory.md R83). -/
@[simp] theorem setWidth_setWidth_elem (x : Elem) : (x.setWidth 16).setWidth 12 = x := by
  simp

/-- A block that holds the elements of a sequence reads as that sequence. -/
theorem blockElems_of_read {s : State} {a : Nat} {p : List Elem}
    (h : ∀ i, (hi : i < p.length) → Memory.read s.dmem (a + i) = (p[i]).setWidth 16) : blockElems s a p.length = p := by
  refine List.ext_getElem (by simp) fun i h1 h2 => ?_
  simp only [blockElems, List.getElem_map, Memory.readBlock_getElem]
  rw [h i h2, setWidth_setWidth_elem]

/-- A stored block reads back word by word (20_memory.md R87). -/
theorem read_elemHalves (m : Memory) (a : Nat) (xs : List Elem) (i : Nat) (h : i < xs.length) :
    Memory.read (Memory.writeBlock m a (elemHalves xs)) (a + i) = (xs[i]).setWidth 16 := by
  rw [Memory.read_writeBlock_inside _ _ _ _ (by simpa using h)]
  simp [elemHalves]

/-- Settles O29: PST writes the coefficients as a block, and PLD reads a block and normalises it. -/
theorem polyTransfer : Obligations.PolyTransfer := by
  intro s rd ra rn q qd hv
  refine ⟨fun hb => ⟨_, exec_of_checks (.inl ⟨hv, .inl ⟨hb, rfl⟩⟩), read_elemHalves _ _ _⟩, fun hn hr => ?_,
    fun hn => exec_of_failing (.inl ⟨hv, .inr ⟨Nat.not_le.2 hn, rfl⟩⟩),
    fun hn hb => exec_of_failing (.inl ⟨hv, .inl ⟨hn, .inr ⟨hb, rfl⟩⟩⟩)⟩
  have hexec := exec_of_checks (i := .pld qd ra rn) (.inl ⟨hv, .inl ⟨hn, .inl ⟨hr.1, .inl ⟨hr.2, rfl⟩⟩⟩⟩)
  refine ⟨hexec, fun p hp hread hlen => ?_⟩
  rw [hexec, result, hlen, blockElems_of_read hread, norm_of_polyOk hp]

/-- Settles O40: both commands check their block and write their buffer to it. -/
theorem bufferStores : Obligations.BufferStores := by
  intro s rd ra
  exact ⟨fun hv hb => ⟨_, exec_of_checks (.inl ⟨hv, .inl ⟨hb, rfl⟩⟩), read_elemHalves _ _ _⟩,
    fun hv hb => exec_of_failing (.inl ⟨hv, .inr ⟨hb, rfl⟩⟩),
    fun hb => ⟨_, exec_of_checks (.inl ⟨hb, rfl⟩), Memory.read_writeBlock_inside _ _ _⟩,
    fun hb => exec_of_failing (.inr ⟨hb, rfl⟩)⟩

/-! ### The field FCFG builds -/

/-- The registers of the field that FCFG builds (41_field.md R155). -/
theorem registers_of_build {size gen base : Nat} {F : FieldCfg} (hF : buildField size gen base = some F) :
    F.valid = true ∧ 2 ^ F.m.toNat = size ∧ F.gen.toNat = gen ∧ F.base.toNat = base := by
  have hlegal := legalField_of_build hF
  have hsize := hlegal.size_mem
  obtain ⟨-, hlo, hhi, hbase, -⟩ := hlegal
  rw [buildField] at hF
  split at hF
  · cases hF
  next m hm =>
    obtain ⟨-, h12, hpow⟩ := sizeLog_eq_some hm
    split_ifs at hF
    cases hF
    simp only [BitVec.toNat_ofNat]
    refine ⟨trivial, ?_, ?_, ?_⟩
    · rw [Nat.mod_eq_of_lt (by omega), hpow]
    · exact Nat.mod_eq_of_lt (by omega)
    · exact Nat.mod_eq_of_lt (by omega)

/-- Settles O20: FCFG builds a field exactly on legal parameters, with EXP and LOG inverse to each other. -/
theorem fcfgBuildsField : Obligations.FcfgBuildsField := by
  rintro s rsize rgen rbase size gen base rfl rfl rfl
  refine ⟨fun hlegal => ?_, fun hlegal => exec_of_failing (.inr ⟨hlegal, rfl⟩)⟩
  obtain ⟨F, hF⟩ := Option.ne_none_iff_exists'.1 hlegal.buildField_ne_none
  obtain ⟨hvalid, hm, hgen, hbase⟩ := registers_of_build hF
  have hexec := exec_of_checks (i := .fcfg rsize rgen rbase) (s := s) (.inl ⟨hlegal, rfl⟩)
  rw [result, hF, Option.getD_some] at hexec
  refine ⟨F, hexec, hvalid, size_of_build hF, hm, hgen, hbase, fun i hi => expAt_toNat_of_build hF hi, fun i hi => ?_⟩
  rw [← order_of_build hF] at hi
  rw [expAt_eq_alphaPow_of_build hF hi.le, logAt_alphaPow_of_build hF, Nat.mod_eq_of_lt hi]

/-! ### The field commands -/

section
variable {size gen base : Nat} {F : FieldCfg} (hF : buildField size gen base = some F)

/-- An element operand is an element (41_field.md R162). -/
theorem isElem_elemOf {v : Word} (h : v.toNat < F.size.toNat) : IsElem F (elemOf v) := by
  rw [IsElem, elemOf, BitVec.toNat_setWidth]
  exact (Nat.mod_le _ _).trans_lt h

include hF

/-- The value of an element operand (41_field.md R162). -/
theorem elemOf_toNat_of_build {v : Word} (h : v.toNat < F.size.toNat) : (elemOf v).toNat = v.toNat := by
  have := (legalField_of_build hF).size_mem
  rw [size_of_build hF] at h
  rw [elemOf, BitVec.toNat_setWidth, Nat.mod_eq_of_lt (by omega)]

theorem elemOf_ne_zero_of_build {v : Word} (h : v.toNat < F.size.toNat) (h0 : v ≠ 0) : elemOf v ≠ 0 := by
  intro he
  have hv := elemOf_toNat_of_build hF h
  rw [he] at hv
  exact h0 (BitVec.eq_of_toNat_eq hv.symm)

theorem isElem_zero_of_build : IsElem F 0 := by
  have := (legalField_of_build hF).size_mem
  rw [isElem_iff_of_build hF]
  exact (by omega : 0 < size)

theorem isElem_one_of_build : IsElem F 1 :=
  alphaPow_zero_of_build hF ▸ isElem_alphaPow_of_build hF 0

theorem isElem_ginv_of_build {x : Elem} (hx : IsElem F x) (h0 : x ≠ 0) : IsElem F (ginv F x) := by
  obtain ⟨i, hi, rfl⟩ := exists_alphaPow_of_build hF hx h0
  rw [ginv_alphaPow_of_build hF hi]
  exact isElem_alphaPow_of_build hF _

/-- An element operand zero-extends to the register it came from. -/
theorem setWidth_elemOf_of_build {v : Word} (h : v.toNat < F.size.toNat) : (elemOf v).setWidth 32 = v := by
  apply BitVec.eq_of_toNat_eq
  rw [BitVec.toNat_setWidth, elemOf_toNat_of_build hF h, Nat.mod_eq_of_lt v.isLt]

/-- An element is twice its half plus its low bit, and the doubling needs no reduction. -/
theorem eq_alpha_gmul_half_of_build {y h : Elem} (hy : IsElem F y) (hh : h.toNat = y.toNat / 2) :
    y = gmul F (alphaPow F 1) h ^^^ (if y.toNat % 2 = 1 then 1 else 0) := by
  rw [isElem_iff_of_build hF] at hy
  have hhe : IsElem F h := by
    rw [isElem_iff_of_build hF]
    omega
  have hdouble : (gmul F (alphaPow F 1) h).toNat = 2 * (y.toNat / 2) :=
    calc (gmul F (alphaPow F 1) h).toNat = doubleStep size gen h.toNat := gmul_alphaPow_toNat_of_build hF 1 hhe
      _ = 2 * (y.toNat / 2) := by rw [doubleStep, hh, if_neg (by omega)]
  apply BitVec.eq_of_toNat_eq
  rw [BitVec.toNat_xor, hdouble]
  split
  · rw [show (1 : Elem).toNat = 1 from rfl, Nat.xor_one_of_even (even_two_mul _)]
    omega
  · rw [show (0 : Elem).toNat = 0 from rfl, Nat.xor_zero]
    omega

/-- GMUL's product is what bit-serial multiplication gives (41_field.md R157). -/
theorem mulRef_of_build {x y : Elem} (hx : IsElem F x) (hy : IsElem F y) {n : Nat} (hn : y.toNat < 2 ^ n) :
    mulRef size gen x.toNat n y.toNat = (gmul F x y).toNat := by
  induction n generalizing y with
  | zero =>
    have h0 : y = 0 := BitVec.eq_of_toNat_eq (by simpa using hn)
    rw [h0, gmul_zero_right]
    rfl
  | succ n ih =>
    have hh : (BitVec.ofNat 12 (y.toNat / 2)).toNat = y.toNat / 2 := by
      have := y.isLt
      rw [BitVec.toNat_ofNat, Nat.mod_eq_of_lt (by omega)]
    generalize BitVec.ofNat 12 (y.toNat / 2) = h at hh
    have hhe : IsElem F h := (Nat.le_of_eq hh).trans (Nat.div_le_self _ _) |>.trans_lt hy
    have hxh := isElem_gmul_of_build hF hx hhe
    have ha := isElem_alphaPow_of_build hF 1
    have hbit : IsElem F (if y.toNat % 2 = 1 then (1 : Elem) else 0) := by
      split
      · exact isElem_one_of_build hF
      · exact isElem_zero_of_build hF
    have hprod : gmul F x y = gmul F (alphaPow F 1) (gmul F x h) ^^^ gmul F x (if y.toNat % 2 = 1 then 1 else 0) := by
      conv_lhs => rw [eq_alpha_gmul_half_of_build hF hy hh]
      rw [gmul_xor_of_build hF hx (isElem_gmul_of_build hF ha hhe) hbit, ← gmul_assoc_of_build hF hx ha hhe,
        gmul_comm F x (alphaPow F 1), gmul_assoc_of_build hF ha hx hhe]
    rw [hprod, BitVec.toNat_xor, gmul_alphaPow_toNat_of_build hF 1 hxh, mulRef, ← hh, ih hhe (by omega)]
    congr 1
    split
    · rw [gmul_one_of_build hF hx]
    · rw [gmul_zero_right]
      rfl

end

/-- Settles O22: the tables multiply as the bit-serial multiplier does. -/
theorem gmulIsModularProduct : Obligations.GmulIsModularProduct := by
  intro s rd rx ry hok hv hx hy
  obtain ⟨size, gen, base, hF⟩ := hok.exists_buildField hv
  have hmul := mulRef_of_build hF (isElem_elemOf hx) (isElem_elemOf hy) (BitVec.isLt _)
  rw [elemOf_toNat_of_build hF hx, elemOf_toNat_of_build hF hy] at hmul
  rw [exec_of_checks (i := .gmul rd rx ry) (.inl ⟨hv, .inl ⟨hx, .inl ⟨hy, rfl⟩⟩⟩), result, size_of_build hF,
    (registers_of_build hF).2.2.1, hmul, setElem_eq, BitVec.ofNat_toNat]

/-- Settles O23: quotients and inverses by the field laws, powers and logarithms by the tables. -/
theorem fieldCommandValues : Obligations.FieldCommandValues := by
  intro s rd rx ry hok hv
  obtain ⟨size, gen, base, hF⟩ := hok.exists_buildField hv
  obtain ⟨-, -, hgen, -⟩ := registers_of_build hF
  refine ⟨⟨_, exec_of_checks (i := .gexp rd rx) (.inl ⟨hv, rfl⟩), ?_⟩, fun hx hy => ⟨?_, fun h0 => ?_, fun h0 => ?_, fun h0 => ?_⟩⟩
  · rw [alphaPow_toNat_of_build hF, size_of_build hF, hgen, (legalField_of_build hF).powerRef_mod]
  · rw [exec_of_checks (i := .gadd rd rx ry) (.inl ⟨hv, .inl ⟨hx, .inl ⟨hy, rfl⟩⟩⟩), result, setElem_eq,
      BitVec.setWidth_xor, setWidth_elemOf_of_build hF hx, setWidth_elemOf_of_build hF hy]
  · have hxe := isElem_elemOf hx
    have hye := isElem_elemOf hy
    have hy0 := elemOf_ne_zero_of_build hF hy h0
    have hinv := isElem_ginv_of_build hF hye hy0
    refine ⟨_, isElem_gmul_of_build hF hxe hinv,
      exec_of_checks (i := .gdiv rd rx ry) (.inl ⟨hv, .inl ⟨hx, .inl ⟨hy, .inl ⟨hy0, rfl⟩⟩⟩⟩), ?_⟩
    rw [gmul_assoc_of_build hF hxe hinv hye, gmul_comm _ (ginv _ _), gmul_ginv_of_build hF hye hy0,
      gmul_one_of_build hF hxe]
  · have hxe := isElem_elemOf hx
    have hx0 := elemOf_ne_zero_of_build hF hx h0
    exact ⟨_, isElem_ginv_of_build hF hxe hx0, exec_of_checks (i := .ginv rd rx) (.inl ⟨hv, .inl ⟨hx, .inl ⟨hx0, rfl⟩⟩⟩),
      gmul_ginv_of_build hF hxe hx0⟩
  · have hx0 := elemOf_ne_zero_of_build hF hx h0
    obtain ⟨k, hk, hxk⟩ := exists_alphaPow_of_build hF (isElem_elemOf hx) hx0
    have hlog : logAt s.field (elemOf (s.sreg rx)) = k := by
      rw [hxk, logAt_alphaPow_of_build hF, Nat.mod_eq_of_lt hk]
    refine ⟨k, hk, ?_, ?_⟩
    · rw [exec_of_checks (i := .glog rd rx) (.inl ⟨hv, .inl ⟨hx, .inl ⟨hx0, rfl⟩⟩⟩), result, hlog, setCount_eq]
    · rw [← elemOf_toNat_of_build hF hx, hxk, alphaPow_toNat_of_build hF, size_of_build hF, hgen]

end Sys2Proof.Machine
end

section
/-! PROOF. The bit stream (45_bitappender.md R291 to R297): what PUSH, BIT and a sequence of bits leave, the padding, and the
commands of the unit. -/

namespace Sys2Proof.Machine

/-! ### Bits of numbers -/

@[simp] theorem length_msbFirst (n v : Nat) : (msbFirst n v).length = n := by
  simp [msbFirst]

@[simp] theorem msbFirst_zero (v : Nat) : msbFirst 0 v = [] := rfl

/-- One more low bit. -/
theorem msbFirst_succ (n c : Nat) (b : Bool) : msbFirst (n + 1) (2 * c + b.toNat) = msbFirst n c ++ [b] := by
  have hlow : (2 * c + b.toNat).testBit 0 = b := by cases b <;> simp [Nat.testBit_zero]
  have hhigh (i : Nat) : (2 * c + b.toNat).testBit (i + 1) = c.testBit i := by
    rw [Nat.testBit_succ, show (2 * c + b.toNat) / 2 = c by have := Bool.toNat_lt b; omega]
  simp only [msbFirst, List.range_succ_eq_map, List.reverse_cons, List.map_append, List.map_reverse, List.map_cons,
    List.map_map, List.map_nil, hlow, Function.comp_def, Nat.succ_eq_add_one, hhigh]

/-- The value PUSH forms where the partial word leaves room for a bit (45_bitappender.md R292). -/
theorem toNat_push {c : Half} (hc : c.toNat < 2 ^ 15) (y : Bool) : ((c <<< 1) ||| bitHalf y).toNat = 2 * c.toNat + y.toNat := by
  have hshift : (c <<< 1).toNat = 2 * c.toNat := by
    rw [BitVec.toNat_shiftLeft, Nat.shiftLeft_eq]
    omega
  have hbit : (bitHalf y).toNat = y.toNat := by cases y <;> rfl
  rw [BitVec.toNat_or, hshift, hbit]
  exact (Nat.two_pow_add_eq_or_of_lt (i := 1) (Bool.toNat_lt y) c.toNat).symm

/-! ### Registers of an initialised stream -/

/-- The registers of a stream of width 2 to 16 whose partial word is shorter than a word (10_state.md R47). -/
structure PackerOk (p : Packer) : Prop where
  two_le : 2 ≤ p.baw.toNat
  le_sixteen : p.baw.toNat ≤ 16
  curlen_lt : p.bacurlen.toNat < p.baw.toNat
  cur_lt : p.bacur.toNat < 2 ^ p.bacurlen.toNat

theorem packerOk_init {w : BitVec 5} (h2 : 2 ≤ w.toNat) (h16 : w.toNat ≤ 16) (sd : Bool) : PackerOk (Packer.init w sd) where
  two_le := h2
  le_sixteen := h16
  curlen_lt := by simp [Packer.init]; omega
  cur_lt := by simp [Packer.init]

/-- The bits of the partial word. -/
def Packer.held (p : Packer) : List Bool :=
  msbFirst p.bacurlen.toNat p.bacur.toNat

/-- The completed word `v` ends in a stuffed bit, under the stuffing of `p` (45_bitappender.md R294). -/
def Packer.stuffed (p : Packer) (v : Half) : Bool :=
  !p.basd && endsStuffed p.baw.toNat v

/-- The data bits of the completed word `v`, under the stuffing of `p` (45_bitappender.md R294). -/
def Packer.dataOf (p : Packer) (v : Half) : List Bool :=
  if p.stuffed v then msbFirst (p.baw.toNat - 1) (v.toNat / 2) else msbFirst p.baw.toNat v.toNat

/-- The registers `p` become `q` and the words `ws` are completed as the data bits `bits` are appended (45_bitappender.md R292
to R295): the words and the partial word hold the bits and the stuffed bits, and BALEN and BANSTUFF count them. -/
structure Fed (p : Packer) (bits : List Bool) (q : Packer) (ws : List Half) : Prop where
  ok : PackerOk q
  baw : q.baw = p.baw
  basd : q.basd = p.basd
  word_lt : ∀ v ∈ ws, v.toNat < 2 ^ p.baw.toNat
  mixed : p.basd = false → ∀ v ∈ ws, v.toNat ≠ 0 ∧ v.toNat ≠ 2 ^ p.baw.toNat - 1
  complement : ∀ v ∈ ws, p.stuffed v = true → v.getLsbD 0 = !v.getLsbD 1
  data : ws.flatMap p.dataOf ++ q.held = p.held ++ bits
  balen : q.balen = p.balen + BitVec.ofNat 32 (bits.length + (ws.filter p.stuffed).length)
  banstuff : q.banstuff = p.banstuff + BitVec.ofNat 32 (ws.filter p.stuffed).length
  count : p.baw.toNat * ws.length + q.bacurlen.toNat = p.bacurlen.toNat + bits.length + (ws.filter p.stuffed).length

theorem Fed.stuffed_eq {p q : Packer} {bits : List Bool} {ws : List Half} (h : Fed p bits q ws) : q.stuffed = p.stuffed := by
  funext v
  rw [Packer.stuffed, Packer.stuffed, h.basd, h.baw]

theorem Fed.dataOf_eq {p q : Packer} {bits : List Bool} {ws : List Half} (h : Fed p bits q ws) : q.dataOf = p.dataOf := by
  funext v
  rw [Packer.dataOf, Packer.dataOf, h.stuffed_eq, h.baw]

/-- Appending nothing changes nothing. -/
theorem Fed.refl {p : Packer} (hp : PackerOk p) : Fed p [] p [] where
  ok := hp
  baw := rfl
  basd := rfl
  word_lt := nofun
  mixed := nofun
  complement := nofun
  data := by simp
  balen := by simp
  banstuff := by simp
  count := by simp

/-- Appending in two parts (45_bitappender.md R293). -/
theorem Fed.trans {p q r : Packer} {bits more : List Bool} {ws us : List Half} (h : Fed p bits q ws) (g : Fed q more r us) :
    Fed p (bits ++ more) r (ws ++ us) where
  ok := g.ok
  baw := g.baw.trans h.baw
  basd := g.basd.trans h.basd
  word_lt v hv := (List.mem_append.1 hv).elim (h.word_lt v) fun hu => h.baw ▸ g.word_lt v hu
  mixed hsd v hv := (List.mem_append.1 hv).elim (h.mixed hsd v) fun hu => h.baw ▸ g.mixed (h.basd.trans hsd) v hu
  complement v hv hs := (List.mem_append.1 hv).elim (fun hw => h.complement v hw hs) fun hu =>
    g.complement v hu (h.stuffed_eq ▸ hs)
  data := by
    have hg := g.data
    rw [h.dataOf_eq] at hg
    rw [List.flatMap_append, List.append_assoc, hg, ← List.append_assoc, h.data, List.append_assoc]
  balen := by
    have hg := g.balen
    rw [h.stuffed_eq] at hg
    rw [hg, h.balen]
    simp only [List.length_append, List.filter_append, BitVec.ofNat_add]
    ac_rfl
  banstuff := by
    have hg := g.banstuff
    rw [h.stuffed_eq] at hg
    rw [hg, h.banstuff, List.filter_append, List.length_append, BitVec.ofNat_add, BitVec.add_assoc]
  count := by
    have hg := g.count
    have hh := h.count
    rw [h.stuffed_eq, h.baw] at hg
    simp only [List.length_append, List.filter_append, Nat.mul_add]
    omega

/-! ### PUSH and BIT -/

section
variable {p : Packer} (hp : PackerOk p)
include hp

theorem PackerOk.cur_lt_half : p.bacur.toNat < 2 ^ 15 :=
  hp.cur_lt.trans_le (Nat.pow_le_pow_right (by omega) (by have := hp.curlen_lt; have := hp.le_sixteen; omega))

/-- PUSH on the last bit of a word completes it, and on any other extends the partial word (45_bitappender.md R292). -/
theorem PackerOk.push_cases (y : Bool) :
    (p.bacurlen.toNat + 1 = p.baw.toNat ∧ ∃ v : Half, v.toNat = 2 * p.bacur.toNat + y.toNat ∧
      p.push y = ({ p with bacur := 0, bacurlen := 0, balen := p.balen + 1 }, [v])) ∨
    (p.bacurlen.toNat + 1 < p.baw.toNat ∧ ∃ (c : Half) (n : BitVec 5), c.toNat = 2 * p.bacur.toNat + y.toNat ∧
      n.toNat = p.bacurlen.toNat + 1 ∧
      p.push y = ({ p with bacur := c, bacurlen := n, balen := p.balen + 1 }, [])) := by
  have hlt := hp.curlen_lt
  have h16 := hp.le_sixteen
  have hsucc : (p.bacurlen + 1).toNat = p.bacurlen.toNat + 1 := by
    rw [BitVec.toNat_add, show (1 : BitVec 5).toNat = 1 from rfl, Nat.mod_eq_of_lt (by omega)]
  have hcur := toNat_push hp.cur_lt_half y
  rcases Machine.push_cases p y with ⟨hfull, hpush⟩ | ⟨hroom, hpush⟩
  · exact .inl ⟨by rw [← hsucc, hfull], _, hcur, hpush⟩
  · refine .inr ⟨?_, _, _, hcur, hsucc, hpush⟩
    have : p.bacurlen.toNat + 1 ≠ p.baw.toNat := fun e => hroom (BitVec.eq_of_toNat_eq (hsucc.trans e))
    omega

omit hp in
/-- R292's test for a stuffed bit. -/
theorem mustStuff_iff : p.mustStuff = true ↔ p.basd = false ∧ p.bacurlen.toNat + 1 = p.baw.toNat ∧
    (p.bacur.toNat = 0 ∨ p.bacur.toNat + 1 = 2 ^ (p.baw.toNat - 1)) := by
  simp [Packer.mustStuff, and_assoc]

omit hp in
/-- R292's test before the last bit of a word says whether R294 counts that bit as stuffed. -/
theorem stuffed_eq_mustStuff {v : Half} {y : Bool} (hfull : p.bacurlen.toNat + 1 = p.baw.toNat)
    (hv : v.toNat = 2 * p.bacur.toNat + y.toNat) : p.stuffed v = p.mustStuff := by
  have hhalf : v.toNat / 2 = p.bacur.toNat := by
    have := Bool.toNat_lt y
    omega
  rw [Bool.eq_iff_iff, mustStuff_iff]
  simp [Packer.stuffed, endsStuffed, hhalf, hfull]

/-- The registers after PUSH completed a word. -/
theorem PackerOk.emptied (n u : Word) : PackerOk { p with bacur := 0, bacurlen := 0, balen := n, banstuff := u } where
  two_le := hp.two_le
  le_sixteen := hp.le_sixteen
  curlen_lt := by simp; have := hp.two_le; omega
  cur_lt := by simp

/-- PUSH of a data bit where no bit is to be stuffed. -/
theorem PackerOk.fed_push (hno : p.mustStuff = false) (x : Bool) : Fed p [x] (p.push x).1 (p.push x).2 := by
  have hx := Bool.toNat_lt x
  rcases hp.push_cases x with ⟨hfull, v, hv, hpush⟩ | ⟨hroom, c, n, hc, hn, hpush⟩
  · have hns : p.stuffed v = false := (stuffed_eq_mustStuff hfull hv).trans hno
    have hW : p.baw.toNat = p.bacurlen.toNat + 1 := hfull.symm
    rw [hpush]
    refine ⟨hp.emptied _ _, rfl, rfl, ?_, ?_, ?_, ?_, ?_, ?_, ?_⟩
    · have := hp.cur_lt
      simp only [List.mem_singleton, forall_eq, hv, hW, Nat.pow_succ]
      omega
    · intro hsd
      have hmid : ¬ (p.bacur.toNat = 0 ∨ p.bacur.toNat + 1 = 2 ^ p.bacurlen.toNat) := fun h =>
        Bool.false_ne_true (hno.symm.trans (mustStuff_iff.2 ⟨hsd, hfull, by rwa [hW, Nat.add_sub_cancel]⟩))
      simp only [List.mem_singleton, forall_eq, hv, hW, Nat.pow_succ]
      omega
    · simp [hns]
    · simp [Packer.dataOf, hns, hv, hW, msbFirst_succ, Packer.held]
    · simp [hns]
    · simp [hns]
    · simp [hns, hW]
  · rw [hpush]
    refine ⟨⟨hp.two_le, hp.le_sixteen, hn ▸ hroom, ?_⟩, rfl, rfl, nofun, nofun, nofun, ?_, rfl, by simp, by simp [hn]⟩
    · have := hp.cur_lt
      simp only [hc, hn, Nat.pow_succ]
      omega
    · simp [Packer.held, hc, hn, msbFirst_succ]

/-- A word that ends in a stuffed bit is 0..01 or 1..10. -/
theorem PackerOk.stuffed_value (hm : p.mustStuff = true) :
    p.bacur.toNat = 0 ∧ 2 * p.bacur.toNat + (!p.bacur.getLsbD 0).toNat = 1 ∨
    p.bacur.toNat % 2 = 1 ∧ 2 * p.bacur.toNat + (!p.bacur.getLsbD 0).toNat + 2 = 2 ^ p.baw.toNat := by
  obtain ⟨-, -, hcur⟩ := mustStuff_iff.1 hm
  have h2 := hp.two_le
  obtain ⟨n, hn⟩ : ∃ n, p.baw.toNat = n + 2 := ⟨p.baw.toNat - 2, by omega⟩
  have hbit : p.bacur.getLsbD 0 = decide (p.bacur.toNat % 2 = 1) := by rw [BitVec.getLsbD, Nat.testBit_zero]
  rw [hn, show n + 2 - 1 = n + 1 by omega, Nat.pow_succ] at hcur
  rw [hbit, hn]
  rcases hcur with h0 | h1
  · exact .inl ⟨h0, by rw [h0]; rfl⟩
  · have hodd : p.bacur.toNat % 2 = 1 := by have := Nat.two_pow_pos n; omega
    refine .inr ⟨hodd, ?_⟩
    rw [decide_eq_true hodd, Bool.not_true, Bool.toNat_false, Nat.pow_succ, Nat.pow_succ]
    omega

/-- BIT's first half pushes the complement of the last bit, as a stuffed bit, where R292's test holds; after it the test does
not hold. -/
theorem PackerOk.fed_stuff : Fed p [] p.stuff.1 p.stuff.2 ∧ p.stuff.1.mustStuff = false := by
  cases hm : p.mustStuff with
  | false =>
    have hstuff : p.stuff = (p, []) := by simp [Packer.stuff, hm]
    rw [hstuff]
    exact ⟨Fed.refl hp, hm⟩
  | true =>
    obtain ⟨-, hfull, -⟩ := mustStuff_iff.1 hm
    have h2 := hp.two_le
    rcases hp.push_cases (!p.bacur.getLsbD 0) with ⟨-, v, hv, hpush⟩ | ⟨hroom, -⟩
    · have hs : p.stuffed v = true := (stuffed_eq_mustStuff hfull hv).trans hm
      have hstuff : p.stuff = ({ p with bacur := 0, bacurlen := 0, balen := p.balen + 1, banstuff := p.banstuff + 1 }, [v]) := by
        rw [Packer.stuff, if_pos hm, hpush]
      have hhalf : v.toNat / 2 = p.bacur.toNat := by
        have := Bool.toNat_lt (!p.bacur.getLsbD 0)
        omega
      have hvalue := hp.stuffed_value hm
      have hfour : 2 ^ 2 ≤ 2 ^ p.baw.toNat := Nat.pow_le_pow_right (by omega) h2
      rw [← hv] at hvalue
      rw [hstuff]
      refine ⟨⟨hp.emptied _ _, rfl, rfl, ?_, ?_, ?_, ?_, ?_, ?_, ?_⟩, ?_⟩
      · simp only [List.mem_singleton, forall_eq]
        omega
      · simp only [List.mem_singleton, forall_eq]
        omega
      · simp only [List.mem_singleton, forall_eq, BitVec.getLsbD, Nat.testBit_succ, hhalf, Nat.testBit_zero]
        rcases hvalue with ⟨h0, h1⟩ | ⟨h0, h1⟩
        · simp [h0, h1]
        · have heven : v.toNat % 2 = 0 := by
            obtain ⟨n, hn⟩ := Nat.exists_eq_add_of_le h2
            rw [hn, Nat.pow_add] at h1
            omega
          simp [h0, heven]
      · simp [Packer.dataOf, hs, hhalf, ← hfull, Packer.held]
      · simp [hs]
      · simp [hs]
      · simp [hs, hfull]
      · rw [← Bool.not_eq_true, mustStuff_iff]
        simp
        omega
    · omega

/-- BIT appends its bit (45_bitappender.md R292). -/
theorem PackerOk.fed_bit (x : Bool) : Fed p [x] (p.bit x).1 (p.bit x).2 :=
  hp.fed_stuff.1.trans (hp.fed_stuff.1.ok.fed_push hp.fed_stuff.2 x)

/-- A sequence of bits is appended (45_bitappender.md R293). -/
theorem PackerOk.fed_run (bits : List Bool) : Fed p bits (p.run bits).1 (p.run bits).2 := by
  induction bits generalizing p with
  | nil => exact Fed.refl hp
  | cons x rest ih => exact (hp.fed_bit x).trans (ih (hp.fed_bit x).ok)

end

/-! ### Padding -/

/-- The bits of a partial word `c` shifted left over `n` ones. -/
theorem testBit_shifted_over_ones (n c j : Nat) :
    (c * 2 ^ n + (2 ^ n - 1)).testBit j = if j < n then true else c.testBit (j - n) := by
  rw [Nat.mul_comm, Nat.testBit_two_pow_mul_add _ (by have := Nat.two_pow_pos n; omega)]
  split
  next h => rw [Nat.testBit_two_pow_sub_one, decide_eq_true h]
  next => rfl

/-- BAPAD ends the padded word in 0: stuffing is on and the partial word is all ones (45_bitappender.md R297). -/
def Packer.padsToZero (p : Packer) : Bool :=
  !p.basd && decide (p.bacur.toNat + 1 = 2 ^ p.bacurlen.toNat)

theorem Packer.padsToZero_iff {p : Packer} :
    p.padsToZero = true ↔ p.basd = false ∧ p.bacur.toNat + 1 = 2 ^ p.bacurlen.toNat := by
  simp [Packer.padsToZero]

section
variable {p : Packer} (hp : PackerOk p) {n : Nat} (hn : p.baw.toNat = p.bacurlen.toNat + (n + 1))
include hp hn

/-- The value BAPAD fills a partial word up to (45_bitappender.md R297). -/
theorem PackerOk.padded_value (ws : List Half) (hcl : p.bacurlen ≠ 0) : ∃ v : Half,
    v.toNat = 2 * (p.bacur.toNat * 2 ^ n + (2 ^ n - 1)) + (!p.padsToZero).toNat ∧ (BitStream.mk p ws).padded =
      ⟨{ p with balen := p.balen + BitVec.ofNat 32 (n + 1), bacur := 0, bacurlen := 0 }, ws ++ [v]⟩ := by
  have hk : p.baw.toNat - p.bacurlen.toNat = n + 1 := by omega
  have hcur := hp.cur_lt
  have hpos := Nat.two_pow_pos n
  have hfull : p.bacur.toNat * 2 ^ (n + 1) + (2 ^ (n + 1) - 1) + 1 = 2 ^ p.baw.toNat ↔
      p.bacur.toNat + 1 = 2 ^ p.bacurlen.toNat := by
    rw [hn, Nat.pow_add 2 p.bacurlen.toNat (n + 1), Nat.add_assoc, Nat.sub_add_cancel (Nat.two_pow_pos _), ← Nat.succ_mul]
    exact Nat.mul_left_inj (Nat.two_pow_pos _).ne'
  have hlt : p.bacur.toNat * 2 ^ (n + 1) + (2 ^ (n + 1) - 1) < 2 ^ 16 := by
    have h1 : (p.bacur.toNat + 1) * 2 ^ (n + 1) ≤ 2 ^ p.bacurlen.toNat * 2 ^ (n + 1) := Nat.mul_le_mul_right _ hcur
    have h2 : 2 ^ p.baw.toNat ≤ 2 ^ 16 := Nat.pow_le_pow_right (by omega) hp.le_sixteen
    rw [hn, Nat.pow_add] at h2
    rw [Nat.add_mul] at h1
    have := Nat.two_pow_pos (n + 1)
    omega
  have hdouble : p.bacur.toNat * 2 ^ (n + 1) = 2 * (p.bacur.toNat * 2 ^ n) := by rw [Nat.pow_succ]; ring
  unfold BitStream.padded
  rw [if_neg hcl]
  simp only [hk, hfull]
  refine ⟨_, ?_, rfl⟩
  rw [BitVec.toNat_ofNat, Nat.mod_eq_of_lt (by split <;> omega)]
  cases hz : p.padsToZero with
  | true =>
    rw [if_pos (Packer.padsToZero_iff.1 hz), hdouble, Nat.pow_succ]
    simp only [Bool.not_true, Bool.toNat_false]
    omega
  | false =>
    rw [if_neg fun h => Bool.false_ne_true (hz.symm.trans (Packer.padsToZero_iff.2 h)), hdouble, Nat.pow_succ]
    simp only [Bool.not_false, Bool.toNat_true]
    omega

/-- The padded word has the partial word above ones (45_bitappender.md R297). -/
theorem PackerOk.paddedWord {v : Half} (hv : v.toNat = 2 * (p.bacur.toNat * 2 ^ n + (2 ^ n - 1)) + (!p.padsToZero).toNat) :
    PaddedWord p v := by
  have hb := Bool.toNat_lt (!p.padsToZero)
  have hpos := Nat.two_pow_pos n
  have hhalf : v.toNat / 2 = p.bacur.toNat * 2 ^ n + (2 ^ n - 1) := by omega
  have hhigh (j : Nat) : v.getLsbD (j + 1) = if j < n then true else p.bacur.getLsbD (j - n) := by
    rw [BitVec.getLsbD, Nat.testBit_succ, hhalf, testBit_shifted_over_ones]
    rfl
  refine ⟨?_, fun j hj => ?_, fun j h1 hj => ?_, ?_⟩
  · have h1 : (p.bacur.toNat + 1) * 2 ^ n ≤ 2 ^ p.bacurlen.toNat * 2 ^ n := Nat.mul_le_mul_right _ hp.cur_lt
    rw [Nat.add_mul] at h1
    rw [hv, hn, ← Nat.add_assoc, Nat.pow_succ, Nat.pow_add]
    omega
  · rw [show p.baw.toNat - p.bacurlen.toNat + j = n + j + 1 by omega, hhigh, if_neg (by omega), Nat.add_sub_cancel_left]
  · obtain ⟨i, rfl⟩ := Nat.exists_eq_add_of_le' h1
    rw [hhigh, if_pos (by omega)]
  · rw [← Packer.padsToZero_iff, BitVec.getLsbD, Nat.testBit_zero, hv]
    cases p.padsToZero <;> simp

omit hp in
/-- With stuffing the padded word is neither all 0 nor all 1 (45_bitappender.md R295 (2)). -/
theorem padded_mixed (hcl : p.bacurlen ≠ 0) (hsd : p.basd = false) {v : Half}
    (hv : v.toNat = 2 * (p.bacur.toNat * 2 ^ n + (2 ^ n - 1)) + (!p.padsToZero).toNat) :
    v.toNat ≠ 0 ∧ v.toNat ≠ 2 ^ p.baw.toNat - 1 := by
  have hpos := Nat.two_pow_pos n
  have hW : 2 ^ p.baw.toNat = 2 * (2 ^ p.bacurlen.toNat * 2 ^ n) := by rw [hn, ← Nat.add_assoc, Nat.pow_succ, Nat.pow_add]; ring
  have hcl0 : p.bacurlen.toNat ≠ 0 := fun e => hcl (BitVec.eq_of_toNat_eq e)
  have htwo : 2 ^ 1 ≤ 2 ^ p.bacurlen.toNat := Nat.pow_le_pow_right (by omega) (by omega)
  have hWpos : 0 < 2 ^ p.bacurlen.toNat * 2 ^ n := by positivity
  rw [hv, hW]
  cases hz : p.padsToZero with
  | true =>
    obtain ⟨-, hones⟩ := Packer.padsToZero_iff.1 hz
    have hcur : 1 * 2 ^ n ≤ p.bacur.toNat * 2 ^ n := Nat.mul_le_mul_right _ (by omega)
    simp only [Bool.not_true, Bool.toNat_false]
    omega
  | false =>
    have hones : p.bacur.toNat + 1 ≠ 2 ^ p.bacurlen.toNat := fun h =>
      Bool.false_ne_true (hz.symm.trans (Packer.padsToZero_iff.2 ⟨hsd, h⟩))
    have hne : (p.bacur.toNat + 1) * 2 ^ n ≠ 2 ^ p.bacurlen.toNat * 2 ^ n := fun h => hones (Nat.mul_right_cancel hpos h)
    rw [Nat.add_mul] at hne
    simp only [Bool.not_false, Bool.toNat_true]
    omega

end

/-- A partial word lacks at least one bit. -/
theorem PackerOk.exists_missing {p : Packer} (hp : PackerOk p) : ∃ n, p.baw.toNat = p.bacurlen.toNat + (n + 1) :=
  ⟨p.baw.toNat - p.bacurlen.toNat - 1, by have := hp.curlen_lt; omega⟩

/-- BAPAD pads as R297 says. -/
theorem PackerOk.padded {p : Packer} (hp : PackerOk p) (ws : List Half) : Padded p ws (BitStream.mk p ws).padded := by
  by_cases hcl : p.bacurlen = 0
  · exact .inl ⟨hcl, if_pos hcl⟩
  obtain ⟨n, hn⟩ := hp.exists_missing
  obtain ⟨v, hv, hpad⟩ := hp.padded_value hn ws hcl
  refine .inr ⟨hcl, v, hp.paddedWord hn hv, ?_⟩
  have hlen : p.balen + p.baw.setWidth 32 - p.bacurlen.setWidth 32 = p.balen + BitVec.ofNat 32 (n + 1) := by
    apply BitVec.eq_of_toNat_eq
    simp only [BitVec.toNat_sub, BitVec.toNat_add, BitVec.toNat_setWidth, BitVec.toNat_ofNat]
    have := hp.le_sixteen
    omega
  rw [hpad, hlen]

/-! ### The invariant of the unit -/

/-- The completed words of an initialised stream and its bit length (10_state.md R47, 45_bitappender.md R295 (2) and (3)). -/
structure WordsOk (b : BitStream) : Prop where
  balen : b.packer.balen = BitVec.ofNat 32 (b.packer.baw.toNat * b.words.length + b.packer.bacurlen.toNat)
  fit : b.words.length ≤ 4096
  word_lt : ∀ v ∈ b.words, v.toNat < 2 ^ b.packer.baw.toNat
  mixed : b.packer.basd = false → ∀ v ∈ b.words, v.toNat ≠ 0 ∧ v.toNat ≠ 2 ^ b.packer.baw.toNat - 1

theorem streamOk_iff {b : BitStream} : StreamOk b ↔ b = BitStream.reset ∨ PackerOk b.packer ∧ WordsOk b := by
  refine or_congr Iff.rfl ⟨fun ⟨h2, h16, hcl, hcur, hlen, hfit, hlt, hmix⟩ => ⟨⟨h2, h16, hcl, hcur⟩, ⟨hlen, hfit, hlt, hmix⟩⟩,
    fun ⟨⟨h2, h16, hcl, hcur⟩, ⟨hlen, hfit, hlt, hmix⟩⟩ => ⟨h2, h16, hcl, hcur, hlen, hfit, hlt, hmix⟩⟩

/-- A stream with a width is not the uninitialised one. -/
theorem StreamOk.initialised {b : BitStream} (h : StreamOk b) (hw : b.packer.baw ≠ 0) : PackerOk b.packer ∧ WordsOk b :=
  (streamOk_iff.1 h).resolve_left fun e => hw (by rw [e]; rfl)

/-- A new stream has no words. -/
theorem wordsOk_init (w : BitVec 5) (sd : Bool) : WordsOk ⟨Packer.init w sd, []⟩ where
  balen := rfl
  fit := by simp
  word_lt := nofun
  mixed _ := nofun

/-- Appending bits whose words have room (45_bitappender.md R293). -/
theorem WordsOk.fed {b : BitStream} (hp : PackerOk b.packer) (hw : WordsOk b) (bits : List Bool)
    (hroom : (b.packer.run bits).2 = [] ∨ b.words.length + (b.packer.run bits).2.length ≤ 4096) : WordsOk (b.fed bits) := by
  have h := hp.fed_run bits
  refine ⟨?_, ?_, ?_, ?_⟩
  · have hcount := h.count
    simp only [BitStream.fed, List.length_append, h.balen, hw.balen, h.baw, ← BitVec.ofNat_add, Nat.mul_add]
    congr 1
    omega
  · have := hw.fit
    rcases hroom with h0 | h0 <;> simp [BitStream.fed, h0, this]
  · intro v hv
    rw [BitStream.fed, h.baw] at *
    exact (List.mem_append.1 hv).elim (hw.word_lt v) (h.word_lt v)
  · intro hsd v hv
    rw [BitStream.fed, h.basd] at hsd
    rw [BitStream.fed, h.baw] at *
    exact (List.mem_append.1 hv).elim (hw.mixed hsd v) (h.mixed hsd v)

/-- Padding a stream that is whole or has room (45_bitappender.md R297). -/
theorem padded_ok {b : BitStream} (hp : PackerOk b.packer) (hw : WordsOk b)
    (hroom : b.packer.bacurlen = 0 ∨ b.words.length < 4096) : PackerOk b.padded.packer ∧ WordsOk b.padded := by
  by_cases hcl : b.packer.bacurlen = 0
  · rw [BitStream.padded, if_pos hcl]
    exact ⟨hp, hw⟩
  obtain ⟨n, hn⟩ := hp.exists_missing
  obtain ⟨v, hv, hpad⟩ := hp.padded_value hn b.words hcl
  rw [hpad]
  refine ⟨hp.emptied _ _, ?_, ?_, ?_, ?_⟩
  · simp only [hw.balen, List.length_append, List.length_singleton, ← BitVec.ofNat_add, Nat.mul_add]
    congr 1
    simp
    omega
  · have := hroom.resolve_left hcl
    simp
    omega
  · intro u hu
    rcases List.mem_append.1 hu with hu | hu
    · exact hw.word_lt u hu
    · rw [List.mem_singleton.1 hu]
      exact (hp.paddedWord hn hv).1
  · intro hsd u hu
    rcases List.mem_append.1 hu with hu | hu
    · exact hw.mixed hsd u hu
    · rw [List.mem_singleton.1 hu]
      exact padded_mixed hn hcl hsd hv

/-- The registers of the stream of a legal width as BAINIT and MENC make them. -/
theorem packerOk_init_ofNat {n : Nat} (h2 : 2 ≤ n) (h16 : n ≤ 16) (sd : Bool) : PackerOk (Packer.init (BitVec.ofNat 5 n) sd) := by
  have hn : (BitVec.ofNat 5 n).toNat = n := Nat.mod_eq_of_lt (by omega)
  exact packerOk_init (by omega) (by omega) sd

/-- The stream of MENC's bits before the padding is well formed and has room for the padding (46_mode_encoder.md R350). -/
theorem mencStream_ok {s : State} {raddr rn rw : SReg} (hW : (s.sreg rw).toNat ∈ [6, 8, 10, 12])
    (hfit : MencFits s raddr rn rw) :
    PackerOk (mencStream s raddr rn rw).packer ∧ WordsOk (mencStream s raddr rn rw) ∧
      ((mencStream s raddr rn rw).packer.bacurlen = 0 ∨ (mencStream s raddr rn rw).words.length < 4096) := by
  have hp : PackerOk (Packer.init (BitVec.ofNat 5 (s.sreg rw).toNat) false) := by
    simp only [List.mem_cons, List.not_mem_nil, or_false] at hW
    exact packerOk_init_ofNat (by omega) (by omega) false
  obtain ⟨hroom, hpad⟩ := hfit _ _ rfl
  exact ⟨(hp.fed_run _).ok, (wordsOk_init _ false).fed hp _ (.inr ((Nat.zero_add _).trans_le hroom)), hpad⟩

/-- The invariant of the bit-stream unit and of the mode-encoder results. -/
def StreamMencOk (s : State) : Prop :=
  StreamOk s.stream ∧ MencOk s

/-- A result keeps the unit and the mode-encoder results well formed. -/
theorem streamMencOk_result (i : Instr) (s : State) (hs : StreamMencOk s) (hc : FirstFailing (checksOf i s) none) :
    StreamMencOk (result i s) := by
  obtain ⟨hstream, hmenc⟩ := hs
  by_cases hi : mnemonicOf i ∈ ["BAINIT", "BAAPP", "BAPAD", "MENC"]
  case neg =>
    have hst : (result i s).stream = s.stream := result_keeps (·.stream) i s (hstream := fun h => absurd h hi)
    have hme : (result i s).menc = s.menc := result_keeps (·.menc) i s (hmenc := fun h => absurd (by simp [h]) hi)
    rw [StreamMencOk, MencOk, hst, hme]
    exact ⟨hstream, hmenc⟩
  cases i <;> simp only [checksOf, firstFailing_none_iff, List.forall_mem_cons, List.not_mem_nil, false_imp_iff, implies_true,
    and_true] at hc
  case bainit rw sd =>
    exact ⟨streamOk_iff.2 (.inr ⟨packerOk_init_ofNat hc.1 hc.2 sd, wordsOk_init _ sd⟩), hmenc⟩
  case baapp rv rn =>
    obtain ⟨hp, hw⟩ := hstream.initialised hc.1
    have hroom := hc.2.2 _ _ rfl
    rw [← natBits_eq_msbFirst] at hroom
    exact ⟨streamOk_iff.2 (.inr ⟨(hp.fed_run _).ok, hw.fed hp _ hroom⟩), hmenc⟩
  case bapad =>
    obtain ⟨hp, hw⟩ := hstream.initialised hc.1
    exact ⟨streamOk_iff.2 (.inr (padded_ok hp hw hc.2)), hmenc⟩
  case menc rd raddr rn rw =>
    obtain ⟨hW, -, -, -, hfit⟩ := hc
    obtain ⟨hp, hw, hpad⟩ := mencStream_ok hW hfit
    have hst : (result (.menc rd raddr rn rw) s).stream = (mencStream s raddr rn rw).padded := by
      simp only [result, setS_stream, setMenc_stream, setStream_stream]
    rw [StreamMencOk, hst]
    refine ⟨streamOk_iff.2 (.inr (padded_ok hp hw hpad)), ?_, ?_⟩
    · have hmw : (BitVec.ofNat 5 (s.sreg rw).toNat).toNat = (s.sreg rw).toNat := by
        simp only [List.mem_cons, List.not_mem_nil, or_false] at hW
        exact Nat.mod_eq_of_lt (by omega)
      simp only [result, setS_menc, setMenc_menc, mencResult, hmw]
      exact List.mem_cons_of_mem _ hW
    · have hm := (chosenSlot (mencBank s raddr rn rw)).1.index.isLt
      simp only [result, setS_menc, setMenc_menc, mencResult, BitVec.toNat_ofNat]
      omega
  all_goals simp [mnemonicOf] at hi

theorem streamMencOk_kept : KeptByUpdates StreamMencOk where
  data {u v} h hu := by
    have hst : v.stream = u.stream := congrArg Data.stream h
    have hme : v.menc = u.menc := congrArg Data.menc h
    rwa [StreamMencOk, MencOk, hst, hme]
  result := streamMencOk_result
  noField _ h := h
  reset _ _ := ⟨.inl rfl, by simp [MencOk, softReset, State.reset, MencResult.reset]⟩
  write _ _ _ _ h := h

/-- Settles O59: each command of the unit leaves a stream with the invariant of the bit primitives, and MENC legal results. -/
theorem stepKeepsStream : Obligations.StepKeepsStream :=
  fun _ _ hs hm h => streamMencOk_kept.step ⟨hs, hm⟩ h

/-! ### The commands -/

/-- Settles O41: the checks of the three commands, their results and the padding. -/
theorem bitStreamCommands : Obligations.BitStreamCommands := by
  intro s rw rv rn sd
  refine ⟨fun h2 h16 => ⟨BitVec.ofNat 5 (s.sreg rw).toNat, Nat.mod_eq_of_lt (by omega), ?_⟩, fun h => ?_, fun hw i hi => ?_,
    fun hw hn => ?_, fun hw hn p ws hrun => ⟨fun hroom => ?_, fun hws hfull => ?_⟩, fun hw hcl => ?_,
    fun hs hw hcl hroom => ?_, fun hw hcl hfull => ?_⟩
  · exact exec_of_checks (i := .bainit rw sd) (.inl ⟨⟨h2, h16⟩, rfl⟩)
  · exact exec_of_failing (i := .bainit rw sd) (.inr ⟨by simp only; omega, rfl⟩)
  · simp only [List.mem_cons, List.not_mem_nil, or_false] at hi
    rcases hi with rfl | rfl
    · exact exec_of_failing (i := .baapp rv rn) (.inr ⟨not_not.2 hw, rfl⟩)
    · exact exec_of_failing (i := .bapad) (.inr ⟨not_not.2 hw, rfl⟩)
  · exact exec_of_failing (i := .baapp rv rn) (.inl ⟨hw, .inr ⟨Nat.not_le.2 hn, rfl⟩⟩)
  · rw [exec_of_checks (i := .baapp rv rn) (.inl ⟨hw, .inl ⟨hn, .inl ⟨fun _ _ h => .inr ?_, rfl⟩⟩⟩)]
    · rw [result, natBits_eq_msbFirst, BitStream.fed, hrun]
    · cases hrun.symm.trans h
      exact hroom
  · refine exec_of_failing (i := .baapp rv rn) (.inl ⟨hw, .inl ⟨hn, .inr ⟨fun h => ?_, rfl⟩⟩⟩)
    exact (h p ws hrun).elim hws (Nat.not_le.2 hfull)
  · rw [exec_of_checks (i := .bapad) (.inl ⟨hw, .inl ⟨.inl hcl, rfl⟩⟩), result, BitStream.padded, if_pos hcl]
    rfl
  · exact ⟨_, (hs.initialised hw).1.padded s.stream.words, exec_of_checks (i := .bapad) (.inl ⟨hw, .inl ⟨.inr hroom, rfl⟩⟩)⟩
  · exact exec_of_failing (i := .bapad) (.inl ⟨hw, .inr ⟨not_or.2 ⟨hcl, Nat.not_lt.2 hfull⟩, rfl⟩⟩)

/-- Settles O42: what a run of bits leaves of a new stream, and runs in two parts. -/
theorem streamHoldsAppendedBits : Obligations.StreamHoldsAppendedBits := by
  refine ⟨fun w sd bits p ws h2 h16 hrun => ?_, fun p q r bits more ws us hq hr => ?_⟩
  · have h := (packerOk_init h2 h16 sd).fed_run bits
    rw [hrun] at h
    have hdata : ws.flatMap (Packer.init w sd).dataOf ++ p.held = bits := h.data
    have hnstuff : p.banstuff = BitVec.ofNat 32 (ws.filter (Packer.init w sd).stuffed).length := by
      rw [h.banstuff]
      exact BitVec.zero_add _
    have hbalen : p.balen = BitVec.ofNat 32 bits.length + p.banstuff := by
      rw [h.balen, hnstuff, BitVec.ofNat_add]
      exact BitVec.zero_add _
    have hbaw : p.baw = w := h.baw
    refine ⟨h.word_lt, hbaw ▸ h.ok.curlen_lt, h.ok.cur_lt, hbalen, fun hsd => ?_, fun hsd => ?_⟩
    · subst hsd
      have hstuffed : (Packer.init w true).stuffed = fun _ => false := rfl
      rw [hstuffed] at hnstuff
      exact ⟨by simpa using hnstuff, hdata⟩
    · subst hsd
      exact ⟨h.complement, hnstuff, hdata⟩
  · rw [run_append, hq, hr]

/-- The stream and the results MENC writes where its checks hold (46_mode_encoder.md R350, R352). -/
theorem exec_menc_of_checks {s : State} {rd ra rn rw : SReg} {w : BitVec 5} {text : List Nat} {bank : Bank} {m : Mode} {sl : Slot}
    {p : Packer} {ws : List Half} (hW : (s.sreg rw).toNat ∈ [6, 8, 10, 12]) (hw : w.toNat = (s.sreg rw).toNat)
    (hn : (s.sreg rn).toNat ≤ 65535) (hb : blockInRange s (s.sreg ra).toNat (s.sreg rn).toNat)
    (ht : ∀ v ∈ Memory.readBlock s.dmem (s.sreg ra).toNat (s.sreg rn).toNat, v.toNat < 256)
    (htext : text = (Memory.readBlock s.dmem (s.sreg ra).toNat (s.sreg rn).toNat).map (fun v => v.toNat))
    (hbank : bank = finalBank s.cfg.aztec w text) (hm : (m, sl) = chosenSlot bank)
    (hrun : (Packer.init w false).run sl.bits = (p, ws)) (hlen : ws.length ≤ 4096) (hroom : p.bacurlen = 0 ∨ ws.length < 4096) :
    exec (.menc rd ra rn rw) s = .next (retire (((s.setStream (BitStream.mk p ws).padded).setMenc
      (mencResult w p.balen m (s.sreg rn).toNat bank)).setS rd p.balen)) := by
  have hw' : BitVec.ofNat 5 (s.sreg rw).toNat = w := by rw [← hw, BitVec.ofNat_toNat, BitVec.setWidth_eq]
  have hbank' : mencBank s ra rn rw = bank := by rw [mencBank, hw', ← htext, ← hbank]
  have hstream : mencStream s ra rn rw = ⟨p, ws⟩ := by
    rw [mencStream, hbank', ← hm, hw', BitStream.fed]
    simp only [hrun, List.nil_append]
  have hfit : MencFits s ra rn rw := by
    intro p' ws' hrun'
    rw [hw', ← htext, ← hbank, ← hm, hrun] at hrun'
    cases hrun'
    exact ⟨hlen, hroom⟩
  rw [exec_of_checks (i := .menc rd ra rn rw)
    (.inl ⟨hW, .inl ⟨hn, .inl ⟨hb, .inl ⟨ht, .inl ⟨hfit, rfl⟩⟩⟩⟩⟩), result, hstream, hbank', ← hm, hw']

/-- The registers of a padded stream (45_bitappender.md R297). -/
theorem Padded.packer {p : Packer} {ws : List Half} {b : BitStream} (h : Padded p ws b) :
    b.packer.baw = p.baw ∧ b.packer.basd = p.basd ∧ b.packer.bacurlen = 0 ∧ b.packer.banstuff = p.banstuff := by
  rcases h with ⟨hcl, rfl⟩ | ⟨-, v, -, rfl⟩
  · exact ⟨rfl, rfl, hcl, rfl⟩
  · exact ⟨rfl, rfl, rfl, rfl⟩

/-- Settles O43: MENC's stream is the padded stream of the chosen slot's bits; MSLOT reads a slot's cost. -/
theorem modeEncoderCommands : Obligations.ModeEncoderCommands := by
  intro s rd ra rn rw
  refine ⟨fun w text bank m sl p ws hW hw hn hb ht htext hbank hm hrun hlen hroom => ?_, fun hW => ?_, fun m hm => ?_, fun h => ?_⟩
  · have hw2 : 2 ≤ w.toNat ∧ w.toNat ≤ 16 := by
      simp only [List.mem_cons, List.not_mem_nil, or_false] at hW
      omega
    have hfed := (packerOk_init hw2.1 hw2.2 false).fed_run sl.bits
    rw [hrun] at hfed
    have hpad := hfed.ok.padded ws
    obtain ⟨hbaw, hbasd, hcl, hnstuff⟩ := hpad.packer
    exact ⟨_, hpad, exec_menc_of_checks hW hw hn hb ht htext hbank hm hrun hlen hroom, hbaw.trans hfed.baw,
      hbasd.trans hfed.basd, hcl, hnstuff⟩
  · exact exec_of_failing (i := .menc rd ra rn rw) (.inr ⟨hW, rfl⟩)
  · have hslot : s.menc.mslots[(s.sreg rn).toNat]? = some (s.menc.mslots.get m) := by
      rw [hm, Vector.getElem?_eq_getElem m.isLt]
      rfl
    rw [exec_of_checks (i := .mslot rd rn) (.inl ⟨by simp only [hm]; exact Nat.le_of_lt_succ m.isLt, rfl⟩), result, hslot,
      Option.getD_some]
  · exact exec_of_failing (i := .mslot rd rn) (.inr ⟨Nat.not_le.2 h, rfl⟩)

end Sys2Proof.Machine
end

section
/-! PROOF. The elements of a configured field as a field of Mathlib, and the polynomials over it as Mathlib's polynomials
(41_field.md R165, 42_polynomial.md R180 to R200): what each operation of the model is there. -/

namespace Sys2Proof.Machine

open Polynomial

/-! ### The field -/

/-- The elements of a field that FCFG built, with its addition and multiplication (41_field.md R165). -/
@[reducible] def fieldOfBuild {size gen base : Nat} {F : FieldCfg} (hF : buildField size gen base = some F) :
    Field { x : Elem // IsElem F x } :=
  @Field.ofMinimalAxioms { x : Elem // IsElem F x }
    ⟨fun x y => ⟨x.1 ^^^ y.1, isElem_xor_of_build hF x.2 y.2⟩⟩
    ⟨fun x y => ⟨gmul F x.1 y.1, isElem_gmul_of_build hF x.2 y.2⟩⟩
    ⟨id⟩
    ⟨fun x => if h : x.1 = 0 then ⟨0, isElem_zero_of_build hF⟩ else ⟨ginv F x.1, isElem_ginv_of_build hF x.2 h⟩⟩
    ⟨⟨0, isElem_zero_of_build hF⟩⟩ ⟨⟨1, isElem_one_of_build hF⟩⟩
    (fun x y z => Subtype.ext (BitVec.xor_assoc x.1 y.1 z.1))
    (fun _ => Subtype.ext BitVec.zero_xor)
    (fun _ => Subtype.ext BitVec.xor_self)
    (fun x y z => Subtype.ext (gmul_assoc_of_build hF x.2 y.2 z.2))
    (fun x y => Subtype.ext (gmul_comm F x.1 y.1))
    (fun x => Subtype.ext ((gmul_comm F 1 x.1).trans (gmul_one_of_build hF x.2)))
    (fun x hx => by
      have h0 : x.1 ≠ 0 := fun h => hx (Subtype.ext h)
      refine Subtype.ext ((congrArg (fun y => gmul F x.1 (Subtype.val y)) (dif_neg h0)).trans ?_)
      exact gmul_ginv_of_build hF x.2 h0)
    (dif_pos rfl)
    (fun x y z => Subtype.ext (gmul_xor_of_build hF x.2 y.2 z.2))
    ⟨⟨0, isElem_zero_of_build hF⟩, ⟨1, isElem_one_of_build hF⟩, fun h =>
      absurd (congrArg Subtype.val h) (show ¬ (0 : Elem) = 1 by decide)⟩

/-- `val` reads the elements of `F` as those of the field `K`, one to one, with their operations. -/
structure FieldModel (F : FieldCfg) {K : Type} [Field K] (val : Elem → K) : Prop where
  build : ∃ size gen base, buildField size gen base = some F
  zero : val 0 = 0
  one : val 1 = 1
  xor : ∀ {x y : Elem}, IsElem F x → IsElem F y → val (x ^^^ y) = val x + val y
  gmul : ∀ {x y : Elem}, IsElem F x → IsElem F y → val (Machine.gmul F x y) = val x * val y
  inj : ∀ {x y : Elem}, IsElem F x → IsElem F y → val x = val y → x = y
  surj : ∀ k : K, ∃ x, IsElem F x ∧ val x = k

open Classical in
/-- Every configured field is a field (41_field.md R165). -/
theorem exists_fieldModel {F : FieldCfg} (hok : FieldOk F) (hv : F.valid = true) :
    ∃ (K : Type) (_ : Field K) (val : Elem → K), FieldModel F val := by
  obtain ⟨size, gen, base, hF⟩ := hok.exists_buildField hv
  let _ := fieldOfBuild hF
  have hval {x : Elem} (h : IsElem F x) : (if h : IsElem F x then (⟨x, h⟩ : { x : Elem // IsElem F x }) else 0) = ⟨x, h⟩ :=
    dif_pos h
  refine ⟨{ x : Elem // IsElem F x }, fieldOfBuild hF, fun x => if h : IsElem F x then ⟨x, h⟩ else 0, ⟨⟨size, gen, base, hF⟩,
    hval (isElem_zero_of_build hF), hval (isElem_one_of_build hF), fun hx hy => ?_, fun hx hy => ?_, fun hx hy h => ?_,
    fun k => ⟨k.1, k.2, hval k.2⟩⟩⟩
  · rw [hval hx, hval hy, hval (isElem_xor_of_build hF hx hy)]
    rfl
  · rw [hval hx, hval hy, hval (isElem_gmul_of_build hF hx hy)]
    rfl
  · rw [hval hx, hval hy] at h
    exact congrArg Subtype.val h

section
variable {F : FieldCfg} {K : Type} [Field K] {val : Elem → K} (M : FieldModel F val)
include M

namespace FieldModel

/-! Elements are closed under the operations. -/

theorem elem_zero : IsElem F 0 := by
  obtain ⟨size, gen, base, hF⟩ := M.build
  exact isElem_zero_of_build hF

theorem elem_one : IsElem F 1 := by
  obtain ⟨size, gen, base, hF⟩ := M.build
  exact isElem_one_of_build hF

theorem elem_xor {x y : Elem} (hx : IsElem F x) (hy : IsElem F y) : IsElem F (x ^^^ y) := by
  obtain ⟨size, gen, base, hF⟩ := M.build
  exact isElem_xor_of_build hF hx hy

theorem elem_gmul {x y : Elem} (hx : IsElem F x) (hy : IsElem F y) : IsElem F (Machine.gmul F x y) := by
  obtain ⟨size, gen, base, hF⟩ := M.build
  exact isElem_gmul_of_build hF hx hy

theorem elem_ginv {x : Elem} (hx : IsElem F x) (h0 : x ≠ 0) : IsElem F (Machine.ginv F x) := by
  obtain ⟨size, gen, base, hF⟩ := M.build
  exact isElem_ginv_of_build hF hx h0

theorem elem_alphaPow (i : Nat) : IsElem F (alphaPow F i) := by
  obtain ⟨size, gen, base, hF⟩ := M.build
  exact isElem_alphaPow_of_build hF i

theorem val_eq_zero_iff {x : Elem} (hx : IsElem F x) : val x = 0 ↔ x = 0 :=
  ⟨fun h => M.inj hx M.elem_zero (h.trans M.zero.symm), fun h => by rw [h, M.zero]⟩

theorem ginv {x : Elem} (hx : IsElem F x) (h0 : x ≠ 0) : val (Machine.ginv F x) = (val x)⁻¹ := by
  obtain ⟨size, gen, base, hF⟩ := M.build
  refine eq_inv_of_mul_eq_one_right ?_
  rw [← M.gmul hx (isElem_ginv_of_build hF hx h0), gmul_ginv_of_build hF hx h0, M.one]

/-- Addition is XOR, so every element is its own negative. -/
theorem add_self (k : K) : k + k = 0 := by
  obtain ⟨x, hx, rfl⟩ := M.surj k
  rw [← M.xor hx hx, BitVec.xor_self]
  exact M.zero

theorem neg_eq (k : K) : -k = k :=
  neg_eq_of_add_eq_zero_left (M.add_self k)

theorem sub_eq_add (k l : K) : k - l = k + l := by
  rw [sub_eq_add_neg, M.neg_eq]

/-- The powers of alpha are the powers of its value (41_field.md R166). -/
theorem alphaPow (i : Nat) : val (Machine.alphaPow F i) = val (Machine.alphaPow F 1) ^ i := by
  obtain ⟨size, gen, base, hF⟩ := M.build
  induction i with
  | zero => rw [alphaPow_zero_of_build hF, M.one, pow_zero]
  | succ i ih => rw [← gmul_alphaPow_of_build hF, M.gmul (M.elem_alphaPow _) (M.elem_alphaPow _), ih, pow_succ]

theorem alphaPow_ne_zero (i : Nat) : Machine.alphaPow F i ≠ 0 := by
  obtain ⟨size, gen, base, hF⟩ := M.build
  exact alphaPow_ne_zero_of_build hF i

/-- A nonzero element is alpha to its logarithm, which is below FSIZE - 1 (41_field.md R164). -/
theorem alphaPow_logAt {x : Elem} (hx : IsElem F x) (h0 : x ≠ 0) :
    logAt F x < F.order ∧ Machine.alphaPow F (logAt F x) = x := by
  obtain ⟨size, gen, base, hF⟩ := M.build
  obtain ⟨i, hi, rfl⟩ := exists_alphaPow_of_build hF hx h0
  rw [logAt_alphaPow_of_build hF, Nat.mod_eq_of_lt hi]
  exact ⟨hi, rfl⟩

theorem logAt_alphaPow {i : Nat} (hi : i < F.order) : logAt F (Machine.alphaPow F i) = i := by
  obtain ⟨size, gen, base, hF⟩ := M.build
  rw [logAt_alphaPow_of_build hF, Nat.mod_eq_of_lt hi]

/-- The sum of a sequence of elements. -/
theorem xorAll {xs : List Elem} (h : ∀ x ∈ xs, IsElem F x) :
    IsElem F (Machine.xorAll xs) ∧ val (Machine.xorAll xs) = (xs.map val).sum := by
  have hfold (acc : Elem) (ha : IsElem F acc) : IsElem F (xs.foldl (fun a b => a ^^^ b) acc) ∧
      val (xs.foldl (fun a b => a ^^^ b) acc) = val acc + (xs.map val).sum := by
    induction xs generalizing acc with
    | nil => exact ⟨ha, by simp⟩
    | cons x rest ih =>
      have hx := h x List.mem_cons_self
      obtain ⟨he, hv⟩ := ih (fun y hy => h y (List.mem_cons_of_mem x hy)) _ (M.elem_xor ha hx)
      exact ⟨he, by rw [List.foldl_cons, hv, M.xor ha hx, List.map_cons, List.sum_cons, add_assoc]⟩
  obtain ⟨he, hv⟩ := hfold 0 M.elem_zero
  exact ⟨he, by rw [Machine.xorAll, hv, M.zero, zero_add]⟩

/-- The product of a sequence of elements. -/
theorem elemProd {xs : List Elem} (h : ∀ x ∈ xs, IsElem F x) :
    IsElem F (Machine.elemProd F xs) ∧ val (Machine.elemProd F xs) = (xs.map val).prod := by
  have hfold (acc : Elem) (ha : IsElem F acc) : IsElem F (xs.foldl (fun a b => Machine.gmul F a b) acc) ∧
      val (xs.foldl (fun a b => Machine.gmul F a b) acc) = val acc * (xs.map val).prod := by
    induction xs generalizing acc with
    | nil => exact ⟨ha, by simp⟩
    | cons x rest ih =>
      have hx := h x List.mem_cons_self
      obtain ⟨he, hv⟩ := ih (fun y hy => h y (List.mem_cons_of_mem x hy)) _ (M.elem_gmul ha hx)
      exact ⟨he, by rw [List.foldl_cons, hv, M.gmul ha hx, List.map_cons, List.prod_cons, mul_assoc]⟩
  obtain ⟨he, hv⟩ := hfold 1 M.elem_one
  exact ⟨he, by rw [Machine.elemProd, hv, M.one, one_mul]⟩

/-- A power of an element. -/
theorem elemPow {x : Elem} (hx : IsElem F x) (n : Nat) :
    IsElem F (Machine.elemPow F x n) ∧ val (Machine.elemPow F x n) = val x ^ n := by
  induction n with
  | zero => exact ⟨M.elem_one, M.one.trans (pow_zero _).symm⟩
  | succ n ih =>
    rw [Machine.elemPow, Function.iterate_succ_apply', ← Machine.elemPow]
    exact ⟨M.elem_gmul ih.1 hx, by rw [M.gmul ih.1 hx, ih.2, pow_succ]⟩

/-- The model's power of a nonzero element (41_field.md R166). -/
theorem gpow {x : Elem} (hx : IsElem F x) (h0 : x ≠ 0) (k : Nat) :
    IsElem F (Machine.gpow F x k) ∧ val (Machine.gpow F x k) = val x ^ k := by
  rw [Machine.gpow]
  split
  next hk => exact ⟨M.elem_one, by rw [hk, M.one, pow_zero]⟩
  next =>
    obtain ⟨size, gen, base, hF⟩ := M.build
    have hexp : expAt F (logAt F x * k % F.order) = Machine.alphaPow F (logAt F x * k) := rfl
    rw [hexp]
    refine ⟨M.elem_alphaPow _, ?_⟩
    rw [M.alphaPow, pow_mul, ← M.alphaPow, (M.alphaPow_logAt hx h0).2]

end FieldModel

end

/-! ### Sequences of coefficients as polynomials -/

/-- A sequence of coefficients, highest degree first, as a polynomial (00_scope.md R13). -/
noncomputable def polyOf {K : Type} [Field K] (val : Elem → K) : List Elem → K[X]
  | [] => 0
  | c :: rest => C (val c) * X ^ rest.length + polyOf val rest

/-- Every coefficient is an element. -/
def AllElem (F : FieldCfg) (p : List Elem) : Prop :=
  ∀ x ∈ p, IsElem F x

theorem PolyOk.allElem {F : FieldCfg} {p : Poly} (h : PolyOk F p) : AllElem F p :=
  h.2.2

section
variable {F : FieldCfg} {K : Type} [Field K] {val : Elem → K}

@[simp] theorem polyOf_nil : polyOf val [] = 0 := rfl

theorem polyOf_cons (c : Elem) (rest : List Elem) :
    polyOf val (c :: rest) = C (val c) * X ^ rest.length + polyOf val rest := rfl

theorem polyOf_append (p q : List Elem) : polyOf val (p ++ q) = polyOf val p * X ^ q.length + polyOf val q := by
  induction p with
  | nil => simp
  | cons c rest ih =>
    rw [List.cons_append, polyOf_cons, ih, polyOf_cons, List.length_append, pow_add]
    ring

theorem AllElem.cons_iff {c : Elem} {rest : List Elem} : AllElem F (c :: rest) ↔ IsElem F c ∧ AllElem F rest :=
  List.forall_mem_cons

theorem AllElem.append {p q : List Elem} (hp : AllElem F p) (hq : AllElem F q) : AllElem F (p ++ q) :=
  fun x hx => (List.mem_append.1 hx).elim (hp x) (hq x)

/-! Coefficients -/

@[simp] theorem coef_nil (k : Nat) : coef [] k = 0 := by
  simp [coef]

theorem coef_cons (c : Elem) (rest : List Elem) (k : Nat) :
    coef (c :: rest) k = if k = rest.length then c else coef rest k := by
  rw [coef, coef, deg, deg, List.length_cons, Nat.add_sub_cancel]
  rcases lt_trichotomy k rest.length with hlt | rfl | hgt
  · rw [if_pos hlt.le, if_neg hlt.ne, if_pos (by omega), show rest.length - k = rest.length - 1 - k + 1 by omega,
      List.getElem?_cons_succ]
  · simp
  · rw [if_neg (by omega), if_neg hgt.ne', if_neg (by omega)]

theorem coef_of_length_le {p : List Elem} {k : Nat} (h : p.length ≤ k) : coef p k = 0 := by
  induction p with
  | nil => exact coef_nil k
  | cons c rest ih =>
    rw [List.length_cons] at h
    rw [coef_cons, if_neg (by omega), ih (by omega)]

theorem coef_deg {p : Poly} : coef p (deg p) = lead p := by
  cases p with
  | nil => exact coef_nil _
  | cons c rest => exact (coef_cons c rest _).trans (if_pos rfl)

/-- A position of the sequence holds the coefficient counted from the other end (00_scope.md R13). -/
theorem getElem_eq_coef (p : List Elem) (i : Nat) (h : i < p.length) : p[i] = coef p (p.length - 1 - i) := by
  induction p generalizing i with
  | nil => cases h
  | cons c rest ih =>
    rw [coef_cons, List.length_cons, Nat.add_sub_cancel]
    cases i with
    | zero => simp
    | succ i =>
      have hi : i < rest.length := Nat.lt_of_succ_lt_succ h
      rw [List.getElem_cons_succ, if_neg (by omega), ih i hi]
      congr 1
      omega

/-- Sequences of one length with the same coefficients are the same. -/
theorem ext_coef {p q : List Elem} (hlen : p.length = q.length) (h : ∀ k, coef p k = coef q k) : p = q :=
  List.ext_getElem hlen fun i h1 h2 => by rw [getElem_eq_coef p i h1, getElem_eq_coef q i h2, h, hlen]

theorem coef_mem {p : List Elem} (k : Nat) : coef p k = 0 ∨ coef p k ∈ p := by
  induction p with
  | nil => exact .inl (coef_nil k)
  | cons c rest ih =>
    rw [coef_cons]
    split
    · exact .inr List.mem_cons_self
    · exact ih.imp id (List.mem_cons_of_mem c)

/-! Zeros -/

theorem deg_zeroPoly : deg [0] = 0 := rfl

section
variable (M : FieldModel F val)
include M

theorem AllElem.coef {p : List Elem} (h : AllElem F p) (k : Nat) : IsElem F (Machine.coef p k) := by
  rcases coef_mem (p := p) k with h0 | hm
  · rw [h0]
    exact M.elem_zero
  · exact h _ hm

/-- The coefficients are the model's (42_polynomial.md R195). -/
theorem coeff_polyOf (p : List Elem) (k : Nat) : (polyOf val p).coeff k = val (coef p k) := by
  induction p with
  | nil => rw [polyOf_nil, coeff_zero, coef_nil, M.zero]
  | cons c rest ih =>
    rw [polyOf_cons, coeff_add, coeff_C_mul_X_pow, ih, coef_cons]
    split
    next h => rw [coef_of_length_le h.ge, M.zero, add_zero]
    next => rw [zero_add]

@[simp] theorem polyOf_replicate_zero (n : Nat) : polyOf val (List.replicate n 0) = 0 := by
  induction n with
  | zero => rfl
  | succ n ih => rw [List.replicate_succ, polyOf_cons, ih, M.zero, C_0, zero_mul, zero_add]

theorem polyOf_zeroPoly : polyOf val [0] = 0 :=
  polyOf_replicate_zero M 1

theorem polyOf_onePoly : polyOf val [1] = 1 := by
  rw [polyOf_cons, M.one, polyOf_nil, add_zero, C_1, one_mul, List.length_nil, pow_zero]

theorem polyOf_norm (p : List Elem) : polyOf val (norm p) = polyOf val p := by
  induction p with
  | nil => exact polyOf_zeroPoly M
  | cons c rest ih =>
    by_cases h : c = 0
    · rw [h, norm_zero_cons, ih, polyOf_cons, M.zero, C_0, zero_mul, zero_add]
    · rw [norm_cons_of_ne c rest h]

theorem polyOk_norm {p : List Elem} (h : AllElem F p) : PolyOk F (norm p) :=
  ⟨norm_ne_nil p, norm_lead p, fun x hx => (mem_norm p x hx).elim (fun h0 => h0 ▸ M.elem_zero) (h x)⟩

theorem polyOk_zeroPoly : PolyOk F [0] :=
  ⟨List.cons_ne_nil _ _, .inr rfl, by simpa using M.elem_zero⟩

theorem polyOk_onePoly : PolyOk F [1] :=
  ⟨List.cons_ne_nil _ _, .inl (by decide), by simpa using M.elem_one⟩

/-! ### Polynomials in normal form -/

omit [Field K] M in
theorem lead_ne_zero {p : Poly} (hp : PolyOk F p) (h0 : p ≠ [0]) : lead p ≠ 0 :=
  hp.2.1.resolve_right h0

omit [Field K] M in
theorem deg_succ {p : Poly} (hp : PolyOk F p) : deg p + 1 = p.length := by
  have := List.length_pos_iff.2 hp.1
  rw [deg]
  omega

/-- The degree and the leading coefficient are the model's (42_polynomial.md R181). -/
theorem natDegree_polyOf {p : Poly} (hp : PolyOk F p) : (polyOf val p).natDegree = deg p := by
  apply le_antisymm
  · rw [natDegree_le_iff_coeff_eq_zero]
    intro k hk
    rw [coeff_polyOf M, coef_of_length_le (by have := deg_succ hp; omega), M.zero]
  · by_cases h0 : p = [0]
    · rw [h0]
      exact Nat.zero_le _
    · refine le_natDegree_of_ne_zero ?_
      rw [coeff_polyOf M, coef_deg]
      have hl := lead_ne_zero hp h0
      rwa [Ne, M.val_eq_zero_iff]
      have := hp.allElem.coef M (deg p)
      rwa [coef_deg] at this

theorem leadingCoeff_polyOf {p : Poly} (hp : PolyOk F p) : (polyOf val p).leadingCoeff = val (lead p) := by
  rw [leadingCoeff, natDegree_polyOf M hp, coeff_polyOf M, coef_deg]

theorem elem_lead {p : Poly} (hp : PolyOk F p) : IsElem F (lead p) :=
  coef_deg (p := p) ▸ hp.allElem.coef M (deg p)

theorem polyOf_eq_zero_iff {p : Poly} (hp : PolyOk F p) : polyOf val p = 0 ↔ p = [0] := by
  refine ⟨fun h => by_contra fun h0 => lead_ne_zero hp h0 ?_, fun h => h ▸ polyOf_zeroPoly M⟩
  rw [← M.val_eq_zero_iff (elem_lead M hp), ← leadingCoeff_polyOf M hp, h, leadingCoeff_zero]

/-- Polynomials in normal form are equal as sequences where they are as polynomials. -/
theorem polyOf_inj {p q : Poly} (hp : PolyOk F p) (hq : PolyOk F q) (h : polyOf val p = polyOf val q) : p = q := by
  have hdeg : deg p = deg q := by rw [← natDegree_polyOf M hp, h, natDegree_polyOf M hq]
  have hlen : p.length = q.length := by rw [← deg_succ hp, ← deg_succ hq, hdeg]
  refine ext_coef hlen fun k => M.inj (hp.allElem.coef M k) (hq.allElem.coef M k) ?_
  rw [← coeff_polyOf M, h, coeff_polyOf M]

/-! ### The operations -/

/-- Adding a sequence in at an offset (42_polynomial.md R187, R188). -/
theorem polyOf_xorAt {off : Nat} {r q : List Elem} (hr : AllElem F r) (hq : AllElem F q) {n : Nat}
    (hlen : off + q.length + n = r.length) :
    AllElem F (xorAt off r q) ∧ polyOf val (xorAt off r q) = polyOf val r + polyOf val q * X ^ n := by
  induction r generalizing off q with
  | nil =>
    have hq0 : q = [] := List.length_eq_zero_iff.1 (by rw [List.length_nil] at hlen; omega)
    rw [xorAt, hq0]
    exact ⟨hr, by simp⟩
  | cons x r ih =>
    obtain ⟨hx, hr'⟩ := AllElem.cons_iff.1 hr
    rw [List.length_cons] at hlen
    cases off with
    | succ off =>
      obtain ⟨he, hv⟩ := ih hr' hq (off := off) (by omega)
      rw [xorAt, polyOf_cons, hv, length_xorAt, polyOf_cons]
      exact ⟨AllElem.cons_iff.2 ⟨hx, he⟩, by ring⟩
    | zero =>
      cases q with
      | nil => exact ⟨hr, by simp [xorAt]⟩
      | cons y q =>
        obtain ⟨hy, hq'⟩ := AllElem.cons_iff.1 hq
        rw [List.length_cons] at hlen
        obtain ⟨he, hv⟩ := ih hr' hq' (off := 0) (by omega)
        rw [xorAt, polyOf_cons, hv, length_xorAt, polyOf_cons, polyOf_cons, M.xor hx hy, C_add,
          show r.length = q.length + n by omega, pow_add]
        exact ⟨AllElem.cons_iff.2 ⟨M.elem_xor hx hy, he⟩, by ring⟩

theorem padd_ok {p q : Poly} (hp : AllElem F p) (hq : AllElem F q) :
    PolyOk F (padd p q) ∧ polyOf val (padd p q) = polyOf val p + polyOf val q := by
  rw [padd]
  split
  · obtain ⟨he, hv⟩ := polyOf_xorAt M hq hp (off := q.length - p.length) (n := 0) (by omega)
    exact ⟨polyOk_norm M he, by rw [polyOf_norm M, hv]; ring⟩
  · obtain ⟨he, hv⟩ := polyOf_xorAt M hp hq (off := p.length - q.length) (n := 0) (by omega)
    exact ⟨polyOk_norm M he, by rw [polyOf_norm M, hv]; ring⟩

/-- Every coefficient multiplied (42_polynomial.md R189). -/
theorem polyOf_map_gmul {p : List Elem} (hp : AllElem F p) {k : Elem} (hk : IsElem F k) :
    AllElem F (p.map (fun c => gmul F c k)) ∧ polyOf val (p.map (fun c => gmul F c k)) = polyOf val p * C (val k) := by
  induction p with
  | nil => exact ⟨nofun, by simp⟩
  | cons c rest ih =>
    obtain ⟨hc, hrest⟩ := AllElem.cons_iff.1 hp
    obtain ⟨he, hv⟩ := ih hrest
    rw [List.map_cons, polyOf_cons, hv, List.length_map, polyOf_cons, M.gmul hc hk, C_mul]
    exact ⟨AllElem.cons_iff.2 ⟨M.elem_gmul hc hk, he⟩, by ring⟩

theorem pscal_ok {p : Poly} (hp : PolyOk F p) {k : Elem} (hk : IsElem F k) :
    PolyOk F (pscal F p k) ∧ polyOf val (pscal F p k) = polyOf val p * C (val k) := by
  rw [pscal]
  split
  next h => exact ⟨polyOk_zeroPoly M, by rw [h, M.zero, C_0, mul_zero, polyOf_zeroPoly M]⟩
  next h =>
    obtain ⟨he, hv⟩ := polyOf_map_gmul M hp.allElem hk
    refine ⟨⟨fun h0 => hp.1 (List.map_eq_nil_iff.1 h0), ?_, he⟩, hv⟩
    by_cases hp0 : p = [0]
    · right
      rw [scaleCoeffs, hp0, List.map_singleton, gmul_zero_left]
    · left
      have hl := lead_ne_zero hp hp0
      have hle := elem_lead M hp
      have hlead : (scaleCoeffs F p k).headD 0 = gmul F (lead p) k := by
        cases p with
        | nil => exact absurd rfl hp.1
        | cons c rest => rfl
      rw [hlead, Ne, ← M.val_eq_zero_iff (M.elem_gmul hle hk), M.gmul hle hk, mul_eq_zero, M.val_eq_zero_iff hle,
        M.val_eq_zero_iff hk]
      exact not_or.2 ⟨hl, h⟩

/-- R188's loop adds the product. -/
theorem polyOf_mulInto {i : Nat} {p q r : List Elem} (hp : AllElem F p) (hq : AllElem F q) (hr : AllElem F r)
    (hlen : r.length + 1 = i + p.length + q.length) :
    AllElem F (mulInto F i p q r) ∧ polyOf val (mulInto F i p q r) = polyOf val r + polyOf val p * polyOf val q := by
  induction p generalizing i r with
  | nil => exact ⟨hr, by simp [mulInto]⟩
  | cons c rest ih =>
    obtain ⟨hc, hrest⟩ := AllElem.cons_iff.1 hp
    simp only [List.length_cons] at hlen
    have hmap := polyOf_map_gmul M hq hc
    simp only [gmul_comm F _ c] at hmap
    obtain ⟨he, hv⟩ := polyOf_xorAt M hr hmap.1 (off := i) (n := rest.length) (by rw [List.length_map]; omega)
    obtain ⟨he', hv'⟩ := ih hrest he (i := i + 1) (by rw [length_xorAt]; omega)
    rw [mulInto, hv', hv, hmap.2, polyOf_cons]
    exact ⟨he', by ring⟩

theorem pmul_ok {p q : Poly} (hp : PolyOk F p) (hq : PolyOk F q) :
    PolyOk F (pmul F p q) ∧ polyOf val (pmul F p q) = polyOf val p * polyOf val q := by
  rw [pmul]
  split
  next h =>
    refine ⟨polyOk_zeroPoly M, ?_⟩
    rcases h with rfl | rfl <;> simp only [polyOf_zeroPoly M, zero_mul, mul_zero]
  next =>
    have hzero : AllElem F (List.replicate (p.length + q.length - 1) 0) := fun x hx =>
      (List.eq_of_mem_replicate hx) ▸ M.elem_zero
    have := List.length_pos_iff.2 hp.1
    obtain ⟨he, hv⟩ := polyOf_mulInto M hp.allElem hq.allElem hzero (i := 0) (by rw [List.length_replicate]; omega)
    exact ⟨polyOk_norm M he, by rw [polyOf_norm M, hv, polyOf_replicate_zero M, zero_add]⟩

theorem pshift_ok {p : Poly} (hp : PolyOk F p) (k : Nat) :
    PolyOk F (pshift p k) ∧ polyOf val (pshift p k) = polyOf val p * X ^ k := by
  by_cases h0 : p = [0]
  · rw [h0, pshift_zeroPoly]
    exact ⟨polyOk_zeroPoly M, by rw [polyOf_zeroPoly M, zero_mul]⟩
  · rw [pshift_of_ne p k h0]
    refine ⟨⟨fun h => hp.1 (List.append_eq_nil_iff.1 h).1, .inl ?_, hp.allElem.append fun x hx =>
      (List.eq_of_mem_replicate hx) ▸ M.elem_zero⟩, ?_⟩
    · have hl := lead_ne_zero hp h0
      cases p with
      | nil => exact absurd rfl hp.1
      | cons c rest => exact hl
    · rw [polyOf_append, polyOf_replicate_zero M, List.length_replicate, add_zero]

theorem pmono_ok {k : Elem} (hk : IsElem F k) (d : Nat) :
    PolyOk F (pmono d k) ∧ polyOf val (pmono d k) = C (val k) * X ^ d := by
  by_cases h0 : k = 0
  · rw [h0, pmono_zero]
    exact ⟨polyOk_zeroPoly M, by rw [M.zero, C_0, zero_mul, polyOf_zeroPoly M]⟩
  · rw [pmono_of_ne d k h0]
    refine ⟨⟨List.cons_ne_nil _ _, .inl h0, AllElem.cons_iff.2 ⟨hk, fun x hx => (List.eq_of_mem_replicate hx) ▸ M.elem_zero⟩⟩, ?_⟩
    rw [polyOf_cons, polyOf_replicate_zero M, List.length_replicate, add_zero]

/-- Every polynomial over the field is one of the model in normal form. -/
theorem exists_polyOf (f : K[X]) : ∃ p, PolyOk F p ∧ polyOf val p = f := by
  induction f using Polynomial.induction_on' with
  | add f g hf hg =>
    obtain ⟨p, hp, rfl⟩ := hf
    obtain ⟨q, hq, rfl⟩ := hg
    exact ⟨_, padd_ok M hp.allElem hq.allElem⟩
  | monomial n k =>
    obtain ⟨x, hx, rfl⟩ := M.surj k
    exact ⟨pmono n x, (pmono_ok M hx n).1, (pmono_ok M hx n).2.trans (C_mul_X_pow_eq_monomial)⟩

/-- PEVAL is evaluation, of sequences in normal form or not (42_polynomial.md R191). -/
theorem peval_ok {p : List Elem} (hp : AllElem F p) {x : Elem} (hx : IsElem F x) :
    IsElem F (peval F p x) ∧ val (peval F p x) = (polyOf val p).eval (val x) := by
  induction p using List.reverseRecOn with
  | nil => exact ⟨M.elem_zero, by rw [peval_nil, M.zero, polyOf_nil, eval_zero]⟩
  | append_singleton p c ih =>
    have hp' : AllElem F p := fun y hy => hp y (List.mem_append_left _ hy)
    have hc : IsElem F c := hp c (by simp)
    obtain ⟨he, hv⟩ := ih hp'
    have hm := M.elem_gmul he hx
    rw [peval_concat]
    refine ⟨M.elem_xor hm hc, ?_⟩
    rw [M.xor hm hc, M.gmul he hx, hv, polyOf_append, polyOf_cons]
    simp

/-- A value is a root in the model where it is one of the polynomial. -/
theorem peval_eq_zero_iff {p : List Elem} (hp : AllElem F p) {x : Elem} (hx : IsElem F x) :
    peval F p x = 0 ↔ (polyOf val p).eval (val x) = 0 := by
  rw [← (peval_ok M hp hx).2, M.val_eq_zero_iff (peval_ok M hp hx).1]

end

end

end Sys2Proof.Machine
end

section
/-! PROOF. The polynomial commands and the Reed-Solomon encoder as polynomial algebra (42_polynomial.md R187 to R200,
43_rs_encoder.md R230 to R234, 44_rs_decoder.md R251). -/

namespace Sys2Proof.Machine

open Polynomial

/-! ### Sums over ranges -/

/-- A sum over a list of indices is a sum over a finite set. -/
theorem sum_map_range {α : Type} [AddCommMonoid α] (f : Nat → α) (n : Nat) :
    ((List.range n).map f).sum = ∑ i ∈ Finset.range n, f i := by
  induction n with
  | zero => rfl
  | succ n ih => rw [List.range_succ, List.map_append, List.sum_append, ih, Finset.sum_range_succ, List.map_singleton,
      List.sum_singleton]

section
variable {F : FieldCfg} {K : Type} [Field K] {val : Elem → K} (M : FieldModel F val)
include M

/-- A coefficient is read off the polynomial. -/
theorem coef_eq {p : List Elem} (hp : AllElem F p) {k : Nat} {y : Elem} (hy : IsElem F y)
    (h : (polyOf val p).coeff k = val y) : coef p k = y :=
  M.inj (hp.coef M k) hy (by rw [← coeff_polyOf M, h])

/-- The product by convolution (42_polynomial.md R188). -/
theorem coef_pmul {p q : Poly} (hp : PolyOk F p) (hq : PolyOk F q) (k : Nat) : coef (pmul F p q) k =
    xorAll ((List.range (k + 1)).map (fun i => gmul F (coef p i) (coef q (k - i)))) := by
  obtain ⟨hok, hval⟩ := pmul_ok M hp hq
  obtain ⟨he, hsum⟩ := M.xorAll (xs := (List.range (k + 1)).map (fun i => gmul F (coef p i) (coef q (k - i)))) (by
    simp only [List.forall_mem_map]
    exact fun i _ => M.elem_gmul (hp.allElem.coef M i) (hq.allElem.coef M _))
  refine coef_eq M hok.allElem he ?_
  rw [hsum, hval, List.map_map, sum_map_range, coeff_mul, Finset.Nat.sum_antidiagonal_eq_sum_range_succ_mk]
  refine Finset.sum_congr rfl fun i _ => ?_
  rw [Function.comp_apply, M.gmul (hp.allElem.coef M i) (hq.allElem.coef M _), coeff_polyOf M, coeff_polyOf M]

/-- The value as a sum of coefficients times powers (42_polynomial.md R191). -/
theorem peval_eq_xorAll {p : Poly} (hp : PolyOk F p) {x : Elem} (hx : IsElem F x) :
    peval F p x = xorAll ((List.range p.length).map (fun k => gmul F (coef p k) (elemPow F x k))) := by
  obtain ⟨he, hv⟩ := peval_ok M hp.allElem hx
  obtain ⟨hs, hsum⟩ := M.xorAll (xs := (List.range p.length).map (fun k => gmul F (coef p k) (elemPow F x k))) (by
    simp only [List.forall_mem_map]
    exact fun k _ => M.elem_gmul (hp.allElem.coef M k) (M.elemPow hx k).1)
  refine M.inj he hs ?_
  rw [hv, hsum, List.map_map, sum_map_range, eval_eq_sum_range, natDegree_polyOf M hp, deg_succ hp]
  refine Finset.sum_congr rfl fun k _ => ?_
  rw [Function.comp_apply, M.gmul (hp.allElem.coef M k) (M.elemPow hx k).1, coeff_polyOf M, (M.elemPow hx k).2]

end

/-! ### Algebra and reads -/

/-- Settles O25: the operations are those of polynomials over the field, coefficient by coefficient. -/
theorem polyAlgebra : Obligations.PolyAlgebra := by
  intro s qd qx qy rk hok hv hq
  obtain ⟨K, _, val, M⟩ := exists_fieldModel hok hv
  have hd := hq.1 hv qd
  have hx := hq.1 hv qx
  have hy := hq.1 hv qy
  have hdd := deg_succ hd
  have hdx := deg_succ hx
  have hdy := deg_succ hy
  refine ⟨?_, fun hlen => ?_, fun hx0 hy0 hlen => ?_, fun hk => ?_, fun hlen => ?_, fun hd0 hlen => ?_⟩
  · obtain ⟨hr, hval⟩ := padd_ok M hd.allElem hx.allElem
    refine ⟨_, exec_of_checks (i := .padd qd qx) (.inl ⟨hv, rfl⟩), hr, fun k => ?_⟩
    have hdk := hd.allElem.coef M k
    have hxk := hx.allElem.coef M k
    exact coef_eq M hr.allElem (M.elem_xor hdk hxk) (by rw [hval, coeff_add, M.xor hdk hxk, coeff_polyOf M, coeff_polyOf M])
  · exact ⟨_, exec_of_checks (i := .pmul qd qx qy)
      (.inl ⟨hv, .inl ⟨hlen.imp_right (Or.imp_right fun h => by omega), rfl⟩⟩), (pmul_ok M hx hy).1, coef_pmul M hx hy⟩
  · exact exec_of_failing (i := .pmul qd qx qy) (.inl ⟨hv, .inr ⟨not_or.2 ⟨hx0, not_or.2 ⟨hy0, by omega⟩⟩, rfl⟩⟩)
  · have hke := isElem_elemOf hk
    obtain ⟨hr, hval⟩ := pscal_ok M hd hke
    refine ⟨_, exec_of_checks (i := .pscal qd rk) (.inl ⟨hv, .inl ⟨hk, rfl⟩⟩), hr, fun k => ?_⟩
    have hdk := hd.allElem.coef M k
    exact coef_eq M hr.allElem (M.elem_gmul hdk hke) (by rw [hval, coeff_mul_C, M.gmul hdk hke, coeff_polyOf M])
  · obtain ⟨hr, hval⟩ := pshift_ok M hd (s.sreg rk).toNat
    refine ⟨_, exec_of_checks (i := .pshift qd rk) (.inl ⟨hv, .inl ⟨hlen.imp_right fun h => by omega, rfl⟩⟩), hr, fun k => ?_⟩
    split
    next hlt => exact coef_eq M hr.allElem M.elem_zero (by rw [hval, coeff_mul_X_pow', if_neg (by omega), M.zero])
    next hge =>
      exact coef_eq M hr.allElem (hd.allElem.coef M _) (by rw [hval, coeff_mul_X_pow', if_pos (by omega), coeff_polyOf M])
  · exact exec_of_failing (i := .pshift qd rk) (.inl ⟨hv, .inr ⟨not_or.2 ⟨hd0, by omega⟩, rfl⟩⟩)

/-- Settles O26: evaluation in the model is evaluation of polynomials. -/
theorem evaluationHomomorphism : Obligations.EvaluationHomomorphism := by
  intro F p q x hok hv hp hq hx
  obtain ⟨K, _, val, M⟩ := exists_fieldModel hok hv
  obtain ⟨hpe, hpv⟩ := peval_ok M hp.allElem hx
  obtain ⟨hqe, hqv⟩ := peval_ok M hq.allElem hx
  obtain ⟨hs, hsv⟩ := padd_ok M hp.allElem hq.allElem
  obtain ⟨hm, hmv⟩ := pmul_ok M hp hq
  obtain ⟨hse, hsx⟩ := peval_ok M hs.allElem hx
  obtain ⟨hme, hmx⟩ := peval_ok M hm.allElem hx
  refine ⟨M.inj hse (M.elem_xor hpe hqe) ?_, M.inj hme (M.elem_gmul hpe hqe) ?_⟩
  · rw [hsx, hsv, M.xor hpe hqe, hpv, hqv, eval_add]
  · rw [hmx, hmv, M.gmul hpe hqe, hpv, hqv, eval_mul]

/-- The constant term is the last coefficient (42_polynomial.md R194). -/
theorem getLast?_eq_coef_zero {p : List Elem} (hp : p ≠ []) : p.getLast? = some (coef p 0) := by
  have hpos := List.length_pos_iff.2 hp
  rw [List.getLast?_eq_getElem?, List.getElem?_eq_getElem (by omega), getElem_eq_coef p _ (by omega), Nat.sub_self]

/-- Settles O27: the reads are coefficients, and PEVAL the sum of R191. -/
theorem polyReads : Obligations.PolyReads := by
  intro s rd rx q hok hv hq
  obtain ⟨K, _, val, M⟩ := exists_fieldModel hok hv
  have hp := hq.1 hv q
  refine ⟨⟨_, exec_of_checks (i := .plead rd q) (.inl ⟨hv, rfl⟩), ?_, coef_deg.symm⟩,
    exec_of_checks (i := .pdeg rd q) (.inl ⟨hv, rfl⟩),
    ⟨_, exec_of_checks (i := .pconst rd q) (.inl ⟨hv, rfl⟩), (getLast?_eq_coef_zero hp.1).symm⟩,
    exec_of_checks (i := .pcoef rd q rx) (.inl ⟨hv, rfl⟩), fun hx => ⟨_, exec_of_checks (i := .peval rd q rx)
      (.inl ⟨hv, .inl ⟨hx, rfl⟩⟩), peval_eq_xorAll M hp (isElem_elemOf hx)⟩,
    fun hx => exec_of_failing (i := .peval rd q rx) (.inl ⟨hv, .inr ⟨Nat.not_lt.2 hx, rfl⟩⟩)⟩
  obtain ⟨c, rest, hc⟩ := List.exists_cons_of_ne_nil hp.1
  rw [hc]
  rfl

/-! ### Roots -/

section
variable {F : FieldCfg} {K : Type} [Field K] {val : Elem → K} (M : FieldModel F val)
include M

/-- PZEROS lists the nonzero elements that are roots (42_polynomial.md R199). -/
theorem mem_pzeros {p : Poly} {x : Elem} : x ∈ pzeros F p ↔ x ≠ 0 ∧ IsElem F x ∧ peval F p x = 0 := by
  have hexp {i : Nat} (hi : i < F.order) : expAt F i = alphaPow F i := by rw [alphaPow, Nat.mod_eq_of_lt hi]
  rw [pzeros, List.mem_filter, List.mem_map, beq_iff_eq, ← and_assoc]
  refine and_congr_left fun _ => ⟨?_, fun ⟨h0, hx⟩ => ?_⟩
  · rintro ⟨i, hi, rfl⟩
    rw [hexp (List.mem_range.1 hi)]
    exact ⟨M.alphaPow_ne_zero i, M.elem_alphaPow i⟩
  · obtain ⟨hlt, he⟩ := M.alphaPow_logAt hx h0
    exact ⟨logAt F x, List.mem_range.2 hlt, (hexp hlt).trans he⟩

/-- The roots are listed by increasing exponent (42_polynomial.md R199). -/
theorem pairwise_pzeros (p : Poly) : (pzeros F p).Pairwise (fun x y => logAt F x < logAt F y) := by
  have hlog {i : Nat} (hi : i < F.order) : logAt F (expAt F i) = i := by
    rw [show expAt F i = alphaPow F i by rw [alphaPow, Nat.mod_eq_of_lt hi], M.logAt_alphaPow hi]
  refine List.Pairwise.filter _ (List.pairwise_map.2 (List.pairwise_lt_range.imp_of_mem fun ha hb hab => ?_))
  rwa [hlog (List.mem_range.1 ha), hlog (List.mem_range.1 hb)]

theorem nodup_pzeros (p : Poly) : (pzeros F p).Nodup :=
  (pairwise_pzeros M p).imp fun h he => (he ▸ h).ne rfl

end

/-- Settles O28: the list of R199 filters the powers of alpha below the order. -/
theorem pzerosListsRoots : Obligations.PzerosListsRoots := by
  intro s rd q hok hv
  obtain ⟨K, _, val, M⟩ := exists_fieldModel hok hv
  exact ⟨_, exec_of_checks (i := .pzeros rd q) (.inl ⟨hv, rfl⟩), fun x => mem_pzeros M, pairwise_pzeros M _⟩

/-- The part of the invariant about the field and the root buffer. -/
def FieldRbufOk (s : State) : Prop :=
  FieldOk s.field ∧ RbufOk s

/-- A result keeps the field one that FCFG builds and the root buffer elements of it: FCFG clears the buffer, PZEROS lists
roots. -/
theorem fieldRbufOk_result (i : Instr) (s : State) (hs : FieldRbufOk s) (hc : FirstFailing (checksOf i s) none) :
    FieldRbufOk (result i s) := by
  obtain ⟨hok, hrbuf⟩ := hs
  by_cases hi : mnemonicOf i ∈ ["FCFG", "PZEROS"]
  case neg =>
    have hf : (result i s).field = s.field := result_keeps (·.field) i s (hfield := fun h => absurd (by simp [h]) hi)
    have hr : (result i s).rbuf = s.rbuf := result_keeps (·.rbuf) i s (hfield := fun h => absurd (by simp [h]) hi)
      (hrbuf := fun h => absurd (by simp [h]) hi)
    rw [FieldRbufOk, RbufOk, hf, hr]
    exact ⟨hok, hrbuf⟩
  cases i
  case fcfg rsize rgen rbase =>
    refine ⟨?_, List.nodup_nil, nofun⟩
    cases hF : buildField (s.sreg rsize).toNat (s.sreg rgen).toNat (s.sreg rbase).toNat with
    | none =>
      simp only [result, hF]
      exact .inl rfl
    | some F =>
      simp only [result, hF]
      exact .inr ⟨_, _, _, hF⟩
  case pzeros rd q =>
    rw [checksOf, firstFailing_none_iff] at hc
    obtain ⟨K, _, val, M⟩ := exists_fieldModel hok (hc _ List.mem_cons_self)
    refine ⟨hok, nodup_pzeros M _, fun x hx => ?_⟩
    obtain ⟨h0, he, -⟩ := (mem_pzeros M).1 hx
    exact ⟨h0, he⟩
  all_goals simp [mnemonicOf] at hi

theorem fieldRbufOk_kept : KeptByUpdates FieldRbufOk where
  data {u v} h hu := by
    have hf : v.field = u.field := congrArg Data.field h
    have hr : v.rbuf = u.rbuf := congrArg Data.rbuf h
    rwa [FieldRbufOk, RbufOk, hf, hr]
  result := fieldRbufOk_result
  noField _ _ := ⟨.inl rfl, List.nodup_nil, nofun⟩
  reset _ _ := ⟨.inl rfl, List.nodup_nil, nofun⟩
  write _ _ _ _ h := h

/-- Settles O56: only FCFG, PZEROS and the resets touch the field and the root buffer. -/
theorem stepKeepsField : Obligations.StepKeepsField :=
  fun _ _ hf hr h => fieldRbufOk_kept.step ⟨hf, hr⟩ h

/-! ### The generator polynomial -/

section
variable {F : FieldCfg} {K : Type} [Field K] {val : Elem → K} (M : FieldModel F val)
include M

/-- R230's factor 1·x + a. -/
theorem linear_ok {a : Elem} (ha : IsElem F a) : PolyOk F [1, a] ∧ polyOf val [1, a] = X + C (val a) := by
  refine ⟨⟨List.cons_ne_nil _ _, .inl (show (1 : Elem) ≠ 0 by decide), AllElem.cons_iff.2 ⟨M.elem_one, AllElem.cons_iff.2 ⟨ha, nofun⟩⟩⟩, ?_⟩
  rw [polyOf_cons, polyOf_cons, polyOf_nil, M.one]
  simp

/-- R230's product of `n` more factors. -/
theorem genProduct_ok {g : Poly} (hg : PolyOk F g) (i n : Nat) : PolyOk F (genProduct F i n g) ∧
    polyOf val (genProduct F i n g) =
      polyOf val g * ∏ j ∈ Finset.range n, (X + C (val (alphaPow F (F.base.toNat + i + j)))) := by
  induction n generalizing i g with
  | zero => exact ⟨hg, by simp [genProduct]⟩
  | succ n ih =>
    obtain ⟨hl, hlv⟩ := linear_ok M (M.elem_alphaPow (F.base.toNat + i))
    obtain ⟨hm, hmv⟩ := pmul_ok M hg hl
    obtain ⟨he, hv⟩ := ih hm (i + 1)
    refine ⟨he, ?_⟩
    rw [genProduct, hv, hmv, hlv, Finset.prod_range_succ', mul_assoc, mul_comm (X + C _)]
    simp only [show ∀ j, F.base.toNat + (i + 1) + j = F.base.toNat + i + (j + 1) by omega, Nat.add_zero]

/-- The generator polynomial is the product of x + alpha^(FBASE + j) (43_rs_encoder.md R230). -/
theorem genPoly_ok (P : Nat) : PolyOk F (genPoly F P) ∧
    polyOf val (genPoly F P) = ∏ j ∈ Finset.range P, (X + C (val (alphaPow F (F.base.toNat + j)))) := by
  obtain ⟨he, hv⟩ := genProduct_ok M (polyOk_onePoly M) 0 P
  exact ⟨he, by rw [genPoly, hv, polyOf_onePoly M, one_mul, Nat.add_zero]⟩

/-- The generator polynomial is monic of degree P. -/
theorem monic_genPoly (P : Nat) : lead (genPoly F P) = 1 ∧ deg (genPoly F P) = P := by
  obtain ⟨hok, hv⟩ := genPoly_ok M P
  have hmonic : (polyOf val (genPoly F P)).Monic := by
    rw [hv]
    exact monic_prod_of_monic _ _ fun j _ => monic_X_add_C _
  constructor
  · refine M.inj (elem_lead M hok) M.elem_one ?_
    rw [← leadingCoeff_polyOf M hok, hmonic.leadingCoeff, M.one]
  · rw [← natDegree_polyOf M hok, hv, natDegree_prod_of_monic _ _ fun j _ => monic_X_add_C _]
    simp

/-- The generator polynomial is 0 at P consecutive powers of alpha. -/
theorem peval_genPoly {P i : Nat} (hi : i < P) : peval F (genPoly F P) (alphaPow F (F.base.toNat + i)) = 0 := by
  obtain ⟨hok, hv⟩ := genPoly_ok M P
  rw [peval_eq_zero_iff M hok.allElem (M.elem_alphaPow _), hv, eval_prod]
  refine Finset.prod_eq_zero (Finset.mem_range.2 hi) ?_
  rw [eval_add, eval_X, eval_C, M.add_self]

end

/-- Settles O30: the generator is the product of its linear factors. -/
theorem rsgenRoots : Obligations.RsgenRoots := by
  intro s qd rp hok hv
  obtain ⟨K, _, val, M⟩ := exists_fieldModel hok hv
  refine ⟨fun hP => ?_, fun hP => exec_of_failing (.inl ⟨hv, .inr ⟨Nat.not_le.2 hP, rfl⟩⟩)⟩
  obtain ⟨hlead, hdeg⟩ := monic_genPoly M (s.sreg rp).toNat
  exact ⟨_, exec_of_checks (i := .rsgen qd rp) (.inl ⟨hv, .inl ⟨hP, rfl⟩⟩), (genPoly_ok M _).1, hlead, hdeg,
    fun i hi => peval_genPoly M hi⟩

/-! ### The parity words -/

section
variable {F : FieldCfg} {K : Type} [Field K] {val : Elem → K} (M : FieldModel F val)
include M

/-- A sequence plus a multiple of another of its length, word by word. -/
theorem zipWith_ok {r q : List Elem} (hr : AllElem F r) (hq : AllElem F q) {k : Elem} (hk : IsElem F k)
    (hlen : r.length = q.length) : AllElem F (List.zipWith (fun x c => x ^^^ gmul F k c) r q) ∧
      polyOf val (List.zipWith (fun x c => x ^^^ gmul F k c) r q) = polyOf val r + C (val k) * polyOf val q := by
  induction r generalizing q with
  | nil =>
    cases q with
    | nil => exact ⟨nofun, by simp⟩
    | cons c q => cases hlen
  | cons x r ih =>
    cases q with
    | nil => cases hlen
    | cons c q =>
      obtain ⟨hx, hr'⟩ := AllElem.cons_iff.1 hr
      obtain ⟨hc, hq'⟩ := AllElem.cons_iff.1 hq
      have hlen' : r.length = q.length := Nat.succ.inj hlen
      obtain ⟨he, hv⟩ := ih hr' hq' hlen'
      have hkc := M.elem_gmul hk hc
      refine ⟨AllElem.cons_iff.2 ⟨M.elem_xor hx hkc, he⟩, ?_⟩
      rw [List.zipWith_cons_cons, polyOf_cons, polyOf_cons, polyOf_cons, hv, List.length_zipWith, hlen', Nat.min_self,
        M.xor hx hkc, M.gmul hk hc, C_add, C_mul]
      ring

/-- A monic polynomial is its highest power and the rest. -/
theorem polyOf_monic {g : Poly} (hg : PolyOk F g) (h1 : lead g = 1) :
    polyOf val g = X ^ deg g + polyOf val g.tail ∧ g.tail.length = deg g := by
  obtain ⟨c, rest, rfl⟩ := List.exists_cons_of_ne_nil hg.1
  have hc : c = 1 := h1
  refine ⟨?_, rfl⟩
  rw [polyOf_cons, hc, M.one, C_1, one_mul]
  rfl

/-- One message word more: the parity buffer stays the remainder (43_rs_encoder.md R233, R234). -/
theorem parityStep_ok {g : Poly} (hg : PolyOk F g) (h1 : lead g = 1) {buf : List Elem} (hbuf : AllElem F buf)
    (hlen : buf.length = deg g) {v : Elem} (hv : IsElem F v) {f : K[X]} (hdvd : polyOf val g ∣ f * X ^ deg g + polyOf val buf) :
    AllElem F (parityStep F g buf v) ∧
      polyOf val g ∣ (f * X + C (val v)) * X ^ deg g + polyOf val (parityStep F g buf v) := by
  obtain ⟨hmonic, htail⟩ := polyOf_monic M hg h1
  obtain ⟨h, hh⟩ := hdvd
  cases buf with
  | nil =>
    have hone : polyOf val g = 1 := by
      rw [hmonic, List.length_eq_zero_iff.1 (htail.trans hlen.symm), ← hlen]
      simp
    exact ⟨nofun, hone ▸ one_dvd _⟩
  | cons b rest =>
    obtain ⟨hb, hrest⟩ := AllElem.cons_iff.1 hbuf
    have hfb := M.elem_xor hv hb
    have hshift : polyOf val (rest ++ [0]) = polyOf val rest * X := by
      rw [polyOf_append, polyOf_zeroPoly M, List.length_singleton, pow_one, add_zero]
    have hzero : AllElem F (rest ++ [0]) := hrest.append (AllElem.cons_iff.2 ⟨M.elem_zero, nofun⟩)
    have hstep : AllElem F (parityStep F g (b :: rest) v) ∧ polyOf val (parityStep F g (b :: rest) v) =
        polyOf val rest * X + C (val (v ^^^ b)) * polyOf val g.tail := by
      rw [parityStep]
      split
      next h0 => exact ⟨hzero, by rw [h0, M.zero, C_0, zero_mul, add_zero, hshift]⟩
      next =>
        have htl : AllElem F g.tail := fun x hx => hg.allElem x (List.mem_of_mem_tail hx)
        obtain ⟨he, hval⟩ := zipWith_ok M hzero htl hfb
          (by rw [htail, ← hlen, List.length_append, List.length_singleton, List.length_cons])
        exact ⟨he, by rw [hval, hshift]⟩
    refine ⟨hstep.1, h * X + C (val (v ^^^ b)), ?_⟩
    have hbuf2 : C (val b) * X ^ rest.length * X = C (val b) * X ^ deg g := by
      rw [← hlen, List.length_cons, pow_succ, mul_assoc]
    have htwo : C (val b) * X ^ deg g + C (val b) * X ^ deg g = 0 := by
      rw [← add_mul, ← C_add, M.add_self, C_0, zero_mul]
    rw [polyOf_cons] at hh
    rw [hstep.2, M.xor hv hb, C_add, mul_add, ← mul_assoc, ← hh, hmonic]
    linear_combination (-1 : K[X]) * hbuf2 - htwo

/-- The message words followed by the parity words are a multiple of the generator (43_rs_encoder.md R233). -/
theorem parity_ok {g : Poly} (hg : PolyOk F g) (h1 : lead g = 1) {m : List Elem} (hm : AllElem F m) :
    AllElem F (parity F g m) ∧ polyOf val g ∣ polyOf val (m ++ parity F g m) := by
  have hinv : AllElem F (parity F g m) ∧ polyOf val g ∣ polyOf val m * X ^ deg g + polyOf val (parity F g m) := by
    induction m using List.reverseRecOn with
    | nil =>
      refine ⟨fun x hx => List.eq_of_mem_replicate hx ▸ M.elem_zero, ?_⟩
      rw [parity, List.foldl_nil, polyOf_replicate_zero M, polyOf_nil, zero_mul, add_zero]
      exact dvd_zero _
    | append_singleton m v ih =>
      obtain ⟨he, hd⟩ := ih fun x hx => hm x (List.mem_append_left _ hx)
      have hstep := parityStep_ok M hg h1 he (length_parity F g m) (hm v (by simp)) hd
      rw [polyOf_append, polyOf_cons, polyOf_nil, List.length_singleton, List.length_nil, pow_one, pow_zero, mul_one, add_zero,
        show parity F g (m ++ [v]) = parityStep F g (parity F g m) v by rw [parity, List.foldl_append]; rfl]
      exact hstep
  exact ⟨hinv.1, by rw [polyOf_append, length_parity]; exact hinv.2⟩

end

/-- The words of a readable block are elements. -/
theorem ReadableElems.allElem {s : State} {a n : Nat} (h : ReadableElems s a n) : AllElem s.field (blockElems s a n) := by
  intro x hx
  obtain ⟨v, hv, rfl⟩ := List.mem_map.1 hx
  rw [IsElem, BitVec.toNat_setWidth]
  exact (Nat.mod_le _ _).trans_lt (h.2 v hv)

/-- Settles O31: the parity buffer is the remainder by the generator. -/
theorem rsencAppendsParity : Obligations.RsencAppendsParity := by
  intro s qg rmsg rl rdst hok hv hg h1 hread hdst
  obtain ⟨K, _, val, M⟩ := exists_fieldModel hok hv
  obtain ⟨he, hdvd⟩ := parity_ok M hg h1 hread.allElem
  refine ⟨_, length_parity _ _ _, he, exec_of_checks (i := .rsenc qg rmsg rl rdst)
    (.inl ⟨hv, .inl ⟨(lead_eq_one_iff _).1 h1, .inl ⟨hread.1, .inl ⟨hdst, .inl ⟨hread.2, rfl⟩⟩⟩⟩⟩), ?_, fun x hx h0 => ?_⟩
  · obtain ⟨f, hf⟩ := hdvd
    obtain ⟨q, hq, rfl⟩ := exists_polyOf M f
    obtain ⟨hm, hmv⟩ := pmul_ok M hg hq
    exact ⟨q, hq, polyOf_inj M (polyOk_norm M (hread.allElem.append he)) hm (by rw [polyOf_norm M, hf, hmv])⟩
  · rw [peval_eq_zero_iff M hg.allElem hx] at h0
    rw [peval_eq_zero_iff M (hread.allElem.append he) hx]
    exact eval_eq_zero_of_dvd_of_eval_eq_zero hdvd h0

/-! ### Syndromes -/

/-- Normalising keeps the coefficients (42_polynomial.md R182). -/
theorem coef_norm (p : List Elem) (k : Nat) : coef (norm p) k = coef p k := by
  induction p with
  | nil => rw [norm_nil, coef_cons, coef_nil, ite_self]
  | cons c rest ih =>
    by_cases h : c = 0
    · rw [h, norm_zero_cons, ih, coef_cons]
      split
      next hk => exact coef_of_length_le hk.ge
      next => rfl
    · rw [norm_cons_of_ne c rest h]

/-- The coefficients of a sequence given lowest degree first. -/
theorem coef_reverse (l : List Elem) (k : Nat) : coef l.reverse k = (l[k]?).getD 0 := by
  induction l using List.reverseRecOn with
  | nil => exact coef_nil k
  | append_singleton l c ih =>
    rw [List.reverse_append, List.reverse_singleton, List.singleton_append, coef_cons, ih, List.length_reverse]
    rcases lt_trichotomy k l.length with hlt | rfl | hgt
    · rw [if_neg hlt.ne, List.getElem?_append_left hlt]
    · simp
    · rw [if_neg hgt.ne', List.getElem?_eq_none (by omega), List.getElem?_eq_none (by simp; omega)]

/-- The coefficients of the syndrome polynomial (44_rs_decoder.md R251). -/
theorem coef_syndromePoly (F : FieldCfg) (w : List Elem) (P i : Nat) : coef (syndromePoly (syndromes F w P)) i =
    if i < P then peval F w (alphaPow F (F.base.toNat + i)) else 0 := by
  rw [syndromePoly, coef_norm, coef_reverse, syndromes]
  split
  next h => simp [h]
  next h => simp [h]

theorem allElem_syndromes {F : FieldCfg} {K : Type} [Field K] {val : Elem → K} (M : FieldModel F val) {w : List Elem}
    (hw : AllElem F w) (P : Nat) : AllElem F (syndromes F w P) := by
  intro x hx
  obtain ⟨i, -, rfl⟩ := List.mem_map.1 hx
  exact (peval_ok M hw (M.elem_alphaPow _)).1

theorem polyOk_syndromePoly {F : FieldCfg} {K : Type} [Field K] {val : Elem → K} (M : FieldModel F val) {w : List Elem}
    (hw : AllElem F w) (P : Nat) : PolyOk F (syndromePoly (syndromes F w P)) :=
  polyOk_norm M fun x hx => allElem_syndromes M hw P x (List.mem_reverse.1 hx)

/-- All syndromes are zero where the word is 0 at every power (44_rs_decoder.md R251). -/
theorem allZero_syndromes_iff (F : FieldCfg) (w : List Elem) (P : Nat) :
    allZero (syndromes F w P) = true ↔ ∀ i < P, peval F w (alphaPow F (F.base.toNat + i)) = 0 := by
  simp [allZero, syndromes]

/-- Settles O34: the coefficients of the syndrome polynomial are the syndromes. -/
theorem rssynSyndromes : Obligations.RssynSyndromes := by
  intro s qs raddr rn rp hok hv hP hread
  obtain ⟨K, _, val, M⟩ := exists_fieldModel hok hv
  refine ⟨_, _, exec_of_checks (i := .rssyn qs raddr rn rp)
    (.inl ⟨hv, .inl ⟨hP, .inl ⟨hread.1, .inl ⟨hread.2, rfl⟩⟩⟩⟩), polyOk_syndromePoly M hread.allElem _,
    coef_syndromePoly _ _ _, ?_⟩
  rw [allZero_syndromes_iff]
  refine forall₂_congr fun i hi => ?_
  rw [coef_syndromePoly, if_pos hi]

end Sys2Proof.Machine
end

section
/-! PROOF. The extended Euclidean solver (44_rs_decoder.md R255 to R263): the division loop, the invariants of the main loop,
the key equation, and the polynomial registers every step keeps. -/

namespace Sys2Proof.Machine

open Polynomial

section
variable {F : FieldCfg} {K : Type} [Field K] {val : Elem → K} (M : FieldModel F val)
include M

/-- Polynomials over the field are their own negatives. -/
theorem FieldModel.add_self_poly (f : K[X]) : f + f = 0 := by
  ext k
  rw [coeff_add, M.add_self, coeff_zero]

/-! ### The division loop -/

/-- What one pass of the division loop subtracts from `r` (44_rs_decoder.md R259). -/
theorem divTerm_ok {b r : Poly} (hb : PolyOk F b) (hb0 : b ≠ [0]) (hr : PolyOk F r) (d : Nat) :
    IsElem F (gmul F (lead r) (ginv F (lead b))) ∧
    val (gmul F (lead r) (ginv F (lead b))) * val (lead b) = val (lead r) ∧
    PolyOk F (pshift (pscal F b (gmul F (lead r) (ginv F (lead b)))) d) ∧
    polyOf val (pshift (pscal F b (gmul F (lead r) (ginv F (lead b)))) d) =
      polyOf val b * (C (val (gmul F (lead r) (ginv F (lead b)))) * X ^ d) := by
  have hlb := lead_ne_zero hb hb0
  have hlbe := elem_lead M hb
  have hlre := elem_lead M hr
  have hinv := M.elem_ginv hlbe hlb
  have hs := M.elem_gmul hlre hinv
  obtain ⟨hsc, hscv⟩ := pscal_ok M hb hs
  obtain ⟨hsh, hshv⟩ := pshift_ok M hsc d
  refine ⟨hs, ?_, hsh, by rw [hshv, hscv, mul_assoc]⟩
  rw [M.gmul hlre hinv, M.ginv hlbe hlb, inv_mul_cancel_right₀]
  exact fun h => hlb ((M.val_eq_zero_iff hlbe).1 h)

/-- A pass of the division loop removes the leading term. -/
theorem divPass_degree {b r : Poly} (hb : PolyOk F b) (hb0 : b ≠ [0]) (hr : PolyOk F r) (hr0 : r ≠ [0]) (hd : deg b ≤ deg r) :
    (polyOf val r + polyOf val b * (C (val (gmul F (lead r) (ginv F (lead b)))) * X ^ (deg r - deg b))).degree <
      (polyOf val r).degree := by
  obtain ⟨hs, hsv, -, -⟩ := divTerm_ok M hb hb0 hr (deg r - deg b)
  have hr0' : polyOf val r ≠ 0 := fun h => hr0 ((polyOf_eq_zero_iff M hr).1 h)
  have hb0' : polyOf val b ≠ 0 := fun h => hb0 ((polyOf_eq_zero_iff M hb).1 h)
  have hlr : val (lead r) ≠ 0 := fun h => lead_ne_zero hr hr0 ((M.val_eq_zero_iff (elem_lead M hr)).1 h)
  have hs0 : val (gmul F (lead r) (ginv F (lead b))) ≠ 0 := fun h => hlr (by rw [← hsv, h, zero_mul])
  generalize val (gmul F (lead r) (ginv F (lead b))) = c at *
  have hterm : polyOf val r + polyOf val b * (C c * X ^ (deg r - deg b)) =
      polyOf val r - polyOf val b * (C c * X ^ (deg r - deg b)) := by
    rw [sub_eq_add_neg, neg_eq_of_add_eq_zero_left (M.add_self_poly _)]
  rw [hterm]
  refine degree_sub_lt_left ?_ hr0' ?_
  · rw [degree_mul, degree_C_mul_X_pow _ hs0, degree_eq_natDegree hr0', degree_eq_natDegree hb0', natDegree_polyOf M hr,
      natDegree_polyOf M hb, ← Nat.cast_add, Nat.add_sub_cancel' hd]
  · rw [leadingCoeff_mul, leadingCoeff_polyOf M hb, leadingCoeff_polyOf M hr, leadingCoeff_C_mul_X_pow, mul_comm, hsv]

/-- The division loop keeps the dividend as quotient times divisor plus remainder, and ends with a remainder of smaller degree
than the divisor, or 0 (44_rs_decoder.md R259). -/
theorem divLoop_ok {b : Poly} (hb : PolyOk F b) (hb0 : b ≠ [0]) {fuel : Nat} {r q : Poly} (hr : PolyOk F r) (hq : PolyOk F q)
    (hfuel : r = [0] ∨ r.length ≤ fuel) :
    PolyOk F (divLoop F b (ginv F (lead b)) fuel r q).1 ∧ PolyOk F (divLoop F b (ginv F (lead b)) fuel r q).2 ∧
    polyOf val (divLoop F b (ginv F (lead b)) fuel r q).1 +
      polyOf val b * polyOf val (divLoop F b (ginv F (lead b)) fuel r q).2 = polyOf val r + polyOf val b * polyOf val q ∧
    ((divLoop F b (ginv F (lead b)) fuel r q).1 = [0] ∨ deg (divLoop F b (ginv F (lead b)) fuel r q).1 < deg b) := by
  induction fuel generalizing r q with
  | zero =>
    have hr0 : r = [0] := hfuel.resolve_right fun h => hr.1 (List.length_eq_zero_iff.1 (Nat.le_zero.1 h))
    exact ⟨hr, hq, rfl, .inl hr0⟩
  | succ fuel ih =>
    rw [divLoop]
    split
    next h =>
      obtain ⟨hd, hr0⟩ := h
      obtain ⟨hs, -, hterm, htermv⟩ := divTerm_ok M hb hb0 hr (deg r - deg b)
      have hdrop := divPass_degree M hb hb0 hr hr0 hd
      obtain ⟨hmono, hmonov⟩ := pmono_ok M hs (deg r - deg b)
      obtain ⟨hr', hrv⟩ := padd_ok M hr.allElem hterm.allElem
      obtain ⟨hq', hqv⟩ := padd_ok M hq.allElem hmono.allElem
      rw [htermv] at hrv
      rw [← hrv] at hdrop
      simp only
      generalize padd r (pshift _ _) = r' at *
      generalize padd q (pmono _ _) = q' at *
      have hfuel' : r' = [0] ∨ r'.length ≤ fuel := by
        refine or_iff_not_imp_left.2 fun h0 => ?_
        have hlt := natDegree_lt_natDegree (fun h => h0 ((polyOf_eq_zero_iff M hr').1 h)) hdrop
        rw [natDegree_polyOf M hr', natDegree_polyOf M hr] at hlt
        have := hfuel.resolve_left hr0
        have := deg_succ hr
        have := deg_succ hr'
        omega
      obtain ⟨h1, h2, h3, h4⟩ := ih hr' hq' hfuel'
      refine ⟨h1, h2, h3.trans ?_, h4⟩
      rw [hrv, hqv, hmonov]
      linear_combination M.add_self_poly (polyOf val b * (C (val (gmul F (lead r) (ginv F (lead b)))) * X ^ (deg r - deg b)))
    next h =>
      refine ⟨hr, hq, rfl, or_iff_not_imp_left.2 fun h0 => ?_⟩
      exact Nat.lt_of_not_le fun hd => h ⟨hd, h0⟩

/-! ### The main loop -/

/-- The working polynomials of EUCLID are in normal form, and those of r fall in degree (44_rs_decoder.md R263). -/
structure EucOk (F : FieldCfg) (e : EucState) : Prop where
  rLast : PolyOk F e.rLast
  r : PolyOk F e.r
  tLast : PolyOk F e.tLast
  t : PolyOk F e.t
  deg_le : deg e.r ≤ deg e.rLast

/-- The degrees of t and r stay within the degree `N` of the first r (44_rs_decoder.md R263), and the last r passed the test of
the loop for `P`, or is the first. -/
structure EucDegrees (P N : Nat) (e : EucState) : Prop where
  rLast : P ≤ 2 * deg e.rLast
  t : deg e.t + deg e.rLast ≤ N
  tLast : deg e.tLast + deg e.r ≤ N

omit M in
/-- The working polynomials are combinations of x^P and the syndromes, with determinant 1 (44_rs_decoder.md R261). -/
def EucBezout (val : Elem → K) (P : Nat) (S : K[X]) (e : EucState) : Prop :=
  ∃ u uLast : K[X], polyOf val e.rLast = uLast * X ^ P + polyOf val e.tLast * S ∧
    polyOf val e.r = u * X ^ P + polyOf val e.t * S ∧ uLast * polyOf val e.t + u * polyOf val e.tLast = 1

/-- One pass divides the last r by r (44_rs_decoder.md R258 to R260). -/
theorem eucStep_division {e : EucState} (he : EucOk F e) (h1 : 1 ≤ deg e.r) : ∃ q : K[X],
    EucOk F (eucStep F e) ∧ (eucStep F e).rLast = e.r ∧ (eucStep F e).tLast = e.t ∧ deg (eucStep F e).r < deg e.r ∧
    polyOf val e.rLast = polyOf val (eucStep F e).r + polyOf val e.r * q ∧
    polyOf val (eucStep F e).t = q * polyOf val e.t + polyOf val e.tLast := by
  have hr0 : e.r ≠ [0] := fun h => by
    rw [h, deg_zeroPoly] at h1
    omega
  obtain ⟨hrem, hquo, hdiv, hend⟩ := divLoop_ok M he.r hr0 (fuel := e.rLast.length) he.rLast (polyOk_zeroPoly M) (.inr le_rfl)
  rw [polyOf_zeroPoly M, mul_zero, add_zero] at hdiv
  obtain ⟨hm, hmv⟩ := pmul_ok M hquo he.t
  obtain ⟨ht, htv⟩ := padd_ok M hm.allElem he.tLast.allElem
  have hlt : deg (eucStep F e).r < deg e.r := by
    rcases hend with h | h
    · rw [eucStep, h, deg_zeroPoly]
      omega
    · exact h
  exact ⟨_, ⟨he.r, hrem, he.t, ht, hlt.le⟩, rfl, rfl, hlt, hdiv.symm, by rw [← hmv]; exact htv⟩

theorem eucStep_degrees {P N : Nat} (hP : 1 ≤ P) {e : EucState} (he : EucOk F e) (hr : P ≤ 2 * deg e.r)
    (hN : EucDegrees P N e) : EucDegrees P N (eucStep F e) := by
  have h1 : 1 ≤ deg e.r := by omega
  obtain ⟨q, hok, hrl, htl, hlt, hdiv, ht⟩ := eucStep_division M he h1
  have hle := he.deg_le
  have htN := hN.t
  have htlN := hN.tLast
  have hr0 : polyOf val e.r ≠ 0 := fun h => by
    rw [← natDegree_polyOf M he.r, h, natDegree_zero] at h1
    omega
  have hq : q.natDegree + deg e.r ≤ deg e.rLast := by
    by_cases hq0 : q = 0
    · rw [hq0, natDegree_zero]
      omega
    · have hprod : polyOf val e.r * q = polyOf val e.rLast - polyOf val (eucStep F e).r := by rw [hdiv]; ring
      have hdeg := natDegree_mul hr0 hq0
      have hsub := natDegree_sub_le (polyOf val e.rLast) (polyOf val (eucStep F e).r)
      rw [← hprod, hdeg, natDegree_polyOf M he.rLast, natDegree_polyOf M hok.r, natDegree_polyOf M he.r] at hsub
      omega
  refine ⟨by rw [hrl]; exact hr, ?_, ?_⟩
  · have hadd := natDegree_add_le (q * polyOf val e.t) (polyOf val e.tLast)
    have hmul := natDegree_mul_le (p := q) (q := polyOf val e.t)
    rw [← ht, natDegree_polyOf M hok.t, natDegree_polyOf M he.tLast] at hadd
    rw [natDegree_polyOf M he.t] at hmul
    rw [hrl]
    omega
  · rw [htl]
    omega

theorem eucStep_bezout {P : Nat} {S : K[X]} {e : EucState} (he : EucOk F e) (h1 : 1 ≤ deg e.r) (hB : EucBezout val P S e) :
    EucBezout val P S (eucStep F e) := by
  obtain ⟨q, -, hrl, htl, -, hdiv, ht⟩ := eucStep_division M he h1
  obtain ⟨u, uLast, hr0, hr, hdet⟩ := hB
  refine ⟨q * u + uLast, u, by rw [hrl, htl, hr], ?_, ?_⟩
  · have htwo := M.add_self_poly (polyOf val e.r * q)
    rw [ht]
    linear_combination hr0 + q * hr - htwo - hdiv
  · have htwo := M.add_self_poly (u * q * polyOf val e.t)
    rw [ht, htl]
    linear_combination hdet + htwo

/-- What holds of the start and is kept by every pass holds of the end of the main loop. -/
theorem eucLoop_induction {Q : EucState → Prop} {P : Nat} (hP : 1 ≤ P)
    (hstep : ∀ e, EucOk F e → P ≤ 2 * deg e.r → Q e → Q (eucStep F e)) {fuel : Nat} {e : EucState} (he : EucOk F e) (hQ : Q e) :
    EucOk F (eucLoop F P fuel e) ∧ Q (eucLoop F P fuel e) := by
  induction fuel generalizing e with
  | zero => exact ⟨he, hQ⟩
  | succ fuel ih =>
    rw [eucLoop]
    split
    next h =>
      obtain ⟨-, hok, -⟩ := eucStep_division M he (by omega)
      exact ih hok (hstep e he h hQ)
    next => exact ⟨he, hQ⟩

/-- The degree of r falls with every pass, so the loop ends by its own test (44_rs_decoder.md R257, R263). -/
theorem eucLoop_ends {P : Nat} (hP : 1 ≤ P) {fuel : Nat} {e : EucState} (he : EucOk F e) (hfuel : deg e.r < fuel) :
    2 * deg (eucLoop F P fuel e).r < P := by
  induction fuel generalizing e with
  | zero => exact absurd hfuel (Nat.not_lt_zero _)
  | succ fuel ih =>
    rw [eucLoop]
    split
    · obtain ⟨-, hok, -, -, hlt, -, -⟩ := eucStep_division M he (by omega)
      exact ih hok (by omega)
    · omega

/-- EUCLID's start (44_rs_decoder.md R256). -/
theorem eucInit_ok (P : Nat) {Sy : Poly} (hS : PolyOk F Sy) :
    EucOk F (eucInit P Sy) ∧ EucDegrees P (max P (deg Sy)) (eucInit P Sy) ∧ deg (eucInit P Sy).r ≤ max P (deg Sy) := by
  have hone : (1 : Elem) ≠ 0 := by decide
  have hdeg : deg (pmono P 1) = P := by rw [pmono_of_ne P 1 hone, deg, List.length_cons, List.length_replicate, Nat.add_sub_cancel]
  obtain ⟨hm, -⟩ := pmono_ok M M.elem_one P
  have hzero : deg [(0 : Elem)] = 0 := rfl
  have hunit : deg [(1 : Elem)] = 0 := rfl
  rw [eucInit]
  split
  · refine ⟨⟨hS, hm, polyOk_zeroPoly M, polyOk_onePoly M, ?_⟩, ⟨?_, ?_, ?_⟩, ?_⟩ <;> simp only [hdeg, hzero, hunit] <;> omega
  · refine ⟨⟨hm, hS, polyOk_zeroPoly M, polyOk_onePoly M, ?_⟩, ⟨?_, ?_, ?_⟩, ?_⟩ <;> simp only [hdeg, hzero, hunit] <;> omega

/-- At the start with a syndrome polynomial of degree at most P, the last r is x^P (44_rs_decoder.md R256). -/
theorem eucInit_bezout {P : Nat} {Sy : Poly} (hP : deg Sy ≤ P) : EucBezout val P (polyOf val Sy) (eucInit P Sy) := by
  obtain ⟨-, hmv⟩ := pmono_ok M M.elem_one P
  rw [eucInit, if_neg (by omega)]
  refine ⟨0, 1, ?_, ?_, ?_⟩
  · rw [hmv, M.one, C_1, polyOf_zeroPoly M]
    ring
  · rw [polyOf_onePoly M]
    ring
  · rw [polyOf_onePoly M]
    ring

/-- The last state of EUCLID's main loop. -/
def eucEnd (F : FieldCfg) (P : Nat) (Sy : Poly) : EucState :=
  eucLoop F P (max P (deg Sy) + 1) (eucInit P Sy)

/-- What holds at the end of the main loop (44_rs_decoder.md R257 to R263). -/
theorem eucEnd_ok {P : Nat} (hP : 1 ≤ P) {Sy : Poly} (hS : PolyOk F Sy) :
    EucOk F (eucEnd F P Sy) ∧ EucDegrees P (max P (deg Sy)) (eucEnd F P Sy) ∧ 2 * deg (eucEnd F P Sy).r < P := by
  obtain ⟨hok, hN, hr⟩ := eucInit_ok M P hS
  obtain ⟨hok', hN'⟩ := eucLoop_induction M (Q := EucDegrees P _) hP (fun _ he hr => eucStep_degrees M hP he hr)
    (fuel := max P (deg Sy) + 1) hok hN
  exact ⟨hok', hN', eucLoop_ends M hP hok (Nat.lt_succ_of_le hr)⟩

theorem eucEnd_bezout {P : Nat} (hP : 1 ≤ P) {Sy : Poly} (hS : PolyOk F Sy) (hdeg : deg Sy ≤ P) :
    EucBezout val P (polyOf val Sy) (eucEnd F P Sy) :=
  (eucLoop_induction M (Q := EucBezout val P _) hP (fun _ he hr => eucStep_bezout M he (by omega)) (eucInit_ok M P hS).1 (eucInit_bezout M hdeg)).2

end

/-! ### The solver's result -/

/-- EUCLID's result, from the last state of its loop (44_rs_decoder.md R261). -/
theorem euclid_eq_some_iff {F : FieldCfg} {P : Nat} {Sy sigma omega : Poly} : euclid F P Sy = some (sigma, omega) ↔
    coef (eucEnd F P Sy).t 0 ≠ 0 ∧ sigma = pscal F (eucEnd F P Sy).t (ginv F (coef (eucEnd F P Sy).t 0)) ∧
      omega = pscal F (eucEnd F P Sy).r (ginv F (coef (eucEnd F P Sy).t 0)) := by
  by_cases h : coef (eucEnd F P Sy).t 0 = 0
  · have hnone : euclid F P Sy = none := if_pos h
    simp [hnone, h]
  · have hsome : euclid F P Sy = some (pscal F (eucEnd F P Sy).t (ginv F (coef (eucEnd F P Sy).t 0)),
        pscal F (eucEnd F P Sy).r (ginv F (coef (eucEnd F P Sy).t 0))) := if_neg h
    rw [hsome, Option.some.injEq, Prod.mk.injEq, eq_comm, eq_comm (b := omega), and_iff_right h]

/-- Settles O36: the degrees of r and of the remainder fall with every pass. -/
theorem euclidBoundSuffices : Obligations.EuclidBoundSuffices := by
  intro F P Sy hok hv hP _ hS
  obtain ⟨K, _, val, M⟩ := exists_fieldModel hok hv
  refine ⟨(eucEnd_ok M hP hS).2.2, fun a b ha hb h1 => ?_⟩
  have hb0 : b ≠ [0] := fun h => by
    rw [h, deg_zeroPoly] at h1
    omega
  obtain ⟨-, -, -, hend⟩ := divLoop_ok M hb hb0 (fuel := a.length) ha (polyOk_zeroPoly M) (.inr le_rfl)
  rcases hend with h | h
  · rw [h, deg_zeroPoly]
    omega
  · exact h

section
variable {F : FieldCfg} {K : Type} [Field K] {val : Elem → K} (M : FieldModel F val)
include M

/-- Sigma and omega are t and r divided by the constant term of t (44_rs_decoder.md R261). -/
theorem euclid_ok {P : Nat} (hP : 1 ≤ P) {Sy sigma omega : Poly} (hS : PolyOk F Sy) (h : euclid F P Sy = some (sigma, omega)) :
    PolyOk F sigma ∧ PolyOk F omega ∧ ∃ k : K, k ≠ 0 ∧ k * val (coef (eucEnd F P Sy).t 0) = 1 ∧
      polyOf val sigma = polyOf val (eucEnd F P Sy).t * C k ∧ polyOf val omega = polyOf val (eucEnd F P Sy).r * C k := by
  obtain ⟨h0, rfl, rfl⟩ := euclid_eq_some_iff.1 h
  obtain ⟨hok, -, -⟩ := eucEnd_ok M hP hS
  have he := hok.t.allElem.coef M 0
  have hne : val (coef (eucEnd F P Sy).t 0) ≠ 0 := fun hv => h0 ((M.val_eq_zero_iff he).1 hv)
  have hinv := M.elem_ginv he h0
  obtain ⟨hs, hsv⟩ := pscal_ok M hok.t hinv
  obtain ⟨ho, hov⟩ := pscal_ok M hok.r hinv
  exact ⟨hs, ho, _, by rw [M.ginv he h0]; exact inv_ne_zero hne, by rw [M.ginv he h0, inv_mul_cancel₀ hne], hsv, hov⟩

omit [Field K] M in
/-- Scaling keeps the length, or gives 0 (42_polynomial.md R189). -/
theorem length_pscal_le {p : Poly} (hp : PolyOk F p) (k : Elem) : (pscal F p k).length ≤ p.length := by
  have := List.length_pos_iff.2 hp.1
  rw [pscal]
  split
  · exact this
  · simp [scaleCoeffs]

end

/-- Settles O37: at the end of the loop r is t times the syndromes modulo x^P. -/
theorem rseucKeyEquation : Obligations.RseucKeyEquation := by
  intro F P Sy sigma omega hok hv hP _ hS hdeg h
  obtain ⟨K, _, val, M⟩ := exists_fieldModel hok hv
  obtain ⟨hs, ho, k, -, hk1, hsv, hov⟩ := euclid_ok M hP hS h
  obtain ⟨heok, -, hr⟩ := eucEnd_ok M hP hS
  obtain ⟨u, -, -, hbez, -⟩ := eucEnd_bezout M hP hS hdeg.le
  refine ⟨?_, ?_, hs, ho, fun i hi => ?_⟩
  · exact coef_eq M hs.allElem M.elem_one (by rw [hsv, coeff_mul_C, coeff_polyOf M, mul_comm, hk1, M.one])
  · have hle := natDegree_mul_C_le (polyOf val (eucEnd F P Sy).r) k
    rw [← hov, natDegree_polyOf M ho, natDegree_polyOf M heok.r] at hle
    omega
  · obtain ⟨hm, hmv⟩ := pmul_ok M hs hS
    refine coef_eq M hm.allElem (ho.allElem.coef M i) ?_
    have hkey : polyOf val sigma * polyOf val Sy = polyOf val omega + (-(C k * u)) * X ^ P := by
      rw [hsv, hov, hbez]
      ring
    rw [hmv, hkey, coeff_add, coeff_mul_X_pow', if_neg (by omega), add_zero, coeff_polyOf M]

/-! ### The polynomial registers -/

/-- The part of the invariant about the field and the polynomial registers. -/
def FieldQregsOk (s : State) : Prop :=
  FieldOk s.field ∧ QregsOk s

/-- A register of a state after a write. -/
theorem qreg_setQ_cases (s : State) (q r : QReg) (p : Poly) : (s.setQ q p).qreg r = p ∨ (s.setQ q p).qreg r = s.qreg r := by
  by_cases h : r = q
  · exact .inl (by rw [h, qreg_setQ_same])
  · exact .inr (qreg_setQ_other s q r p h)

/-- A property of polynomials that holds of the registers and of what is written to one holds of the registers after. -/
theorem forall_qreg_setQ {Q : Poly → Prop} {s : State} (h : ∀ q, Q (s.qreg q)) {d : QReg} {p : Poly} (hp : Q p) (q : QReg) :
    Q ((s.setQ d p).qreg q) := by
  rcases qreg_setQ_cases s d q p with he | he <;> rw [he]
  · exact hp
  · exact h q

/-- The polynomials a command writes to polynomial registers when it retires, FCFG's cleared registers apart (10_state.md R34). -/
def writtenPolys (i : Instr) (s : State) : List Poly :=
  match i with
  | .pzero _ => [[0]]
  | .pone _ => [[1]]
  | .pmono _ rdeg rk => [pmono (s.sreg rdeg).toNat (elemOf (s.sreg rk))]
  | .padd qd qs => [padd (s.qreg qd) (s.qreg qs)]
  | .pmul _ qx qy => [pmul s.field (s.qreg qx) (s.qreg qy)]
  | .pscal qd rk => [pscal s.field (s.qreg qd) (elemOf (s.sreg rk))]
  | .pshift qd rk => [pshift (s.qreg qd) (s.sreg rk).toNat]
  | .pcopy _ qs => [s.qreg qs]
  | .pld _ raddr rn => [norm (blockElems s (s.sreg raddr).toNat (s.sreg rn).toNat)]
  | .rsgen _ rp => [genPoly s.field (s.sreg rp).toNat]
  | .rssyn _ raddr rn rp =>
    [syndromePoly (syndromes s.field (blockElems s (s.sreg raddr).toNat (s.sreg rn).toNat) (s.sreg rp).toNat)]
  | .rseuc _ _ qs rp => (euclid s.field (s.sreg rp).toNat (s.qreg qs)).elim [] fun d => [d.1, d.2]
  | _ => []

/-- What holds of the polynomial registers and of the polynomials a command writes holds of the registers of its result. -/
theorem forall_qreg_result {Q : Poly → Prop} {i : Instr} {s : State} (hi : mnemonicOf i ≠ "FCFG") (h : ∀ q, Q (s.qreg q))
    (hw : ∀ p ∈ writtenPolys i s, Q p) (q : QReg) : Q ((result i s).qreg q) := by
  by_cases hd : polyDests i = []
  · have hkept : (result i s).qreg q = s.qreg q :=
      result_keeps (·.qreg q) i s (hQ := by simp [hd]) (hfield := fun h => absurd h hi)
    rw [hkept]
    exact h q
  cases i <;> simp only [polyDests, not_true_eq_false] at hd
  case rseuc qsig qomg qs rp =>
    simp only [writtenPolys, result] at hw ⊢
    cases he : euclid s.field (s.sreg rp).toNat (s.qreg qs) with
    | none => exact h q
    | some d =>
      rw [he] at hw
      exact forall_qreg_setQ (forall_qreg_setQ h (hw d.1 (by simp))) (hw d.2 (by simp)) q
  all_goals exact forall_qreg_setQ h (hw _ List.mem_cons_self) q

/-- A command that writes a polynomial register needs the field (41_field.md R168). -/
theorem valid_of_checks {i : Instr} {s : State} (hd : polyDests i ≠ []) (hc : FirstFailing (checksOf i s) none) :
    s.field.valid = true := by
  rw [firstFailing_none_iff] at hc
  refine hc (fieldCheck s) ?_
  cases i <;> simp only [polyDests, ne_eq, not_true_eq_false] at hd <;> simp [checksOf]

section
variable {F : FieldCfg} {K : Type} [Field K] {val : Elem → K} {i : Instr} {s : State} (M : FieldModel s.field val)
  (hq : ∀ q, PolyOk s.field (s.qreg q)) (hc : FirstFailing (checksOf i s) none)
include M hq hc

/-- The polynomials a command writes are in normal form over the field (42_polynomial.md R182). -/
theorem polyOk_writtenPolys : ∀ p ∈ writtenPolys i s, PolyOk s.field p := by
  rw [firstFailing_none_iff] at hc
  cases i <;> simp only [writtenPolys, List.mem_singleton, List.not_mem_nil, forall_eq, false_imp_iff, implies_true]
  all_goals simp only [checksOf, fieldCheck, elemCheck, parityCheck, blockCheck, wordsCheck, List.forall_mem_cons,
    List.not_mem_nil, false_imp_iff, implies_true, and_true] at hc
  case pzero => exact polyOk_zeroPoly M
  case pone => exact polyOk_onePoly M
  case pmono => exact (pmono_ok M (isElem_elemOf hc.2.1) _).1
  case padd qd qs => exact (padd_ok M (hq qd).allElem (hq qs).allElem).1
  case pmul qd qx qy => exact (pmul_ok M (hq qx) (hq qy)).1
  case pscal qd rk => exact (pscal_ok M (hq qd) (isElem_elemOf hc.2)).1
  case pshift qd rk => exact (pshift_ok M (hq qd) _).1
  case pcopy qd qs => exact hq qs
  case pld => exact polyOk_norm M (ReadableElems.allElem hc.2.2)
  case rsgen => exact (genPoly_ok M _).1
  case rssyn => exact polyOk_syndromePoly M (ReadableElems.allElem hc.2.2) _
  case rseuc qsig qomg qs rp =>
    cases he : euclid s.field (s.sreg rp).toNat (s.qreg qs) with
    | none => exact nofun
    | some d =>
      have hP : 1 ≤ (s.sreg rp).toNat := Nat.one_le_iff_ne_zero.2 fun e => hc.2.2.1 (BitVec.eq_of_toNat_eq e)
      obtain ⟨h1, h2, -⟩ := euclid_ok M hP (hq qs) he
      simpa using ⟨h1, h2⟩

/-- The polynomials a command writes have at most POLY_MAXLEN coefficients (10_state.md R33, 44_rs_decoder.md R263). -/
theorem length_writtenPolys (hfit : QregsFit s) : ∀ p ∈ writtenPolys i s, p.length ≤ 4096 := by
  have hsize : s.field.size.toNat ≤ 4096 := by
    obtain ⟨size, gen, base, hF⟩ := M.build
    rw [size_of_build hF]
    exact (legalField_of_build hF).size_mem.2
  have hfit' (q : QReg) : (s.qreg q).length ≤ 4096 := hfit q
  rw [firstFailing_none_iff] at hc
  cases i <;> simp only [writtenPolys, List.mem_singleton, List.not_mem_nil, forall_eq, false_imp_iff, implies_true]
  all_goals simp only [checksOf, fieldCheck, elemCheck, parityCheck, blockCheck, wordsCheck, List.forall_mem_cons,
    List.not_mem_nil, false_imp_iff, implies_true, and_true] at hc
  case pzero | pone => simp
  case pmono =>
    obtain ⟨-, -, h0 | hd⟩ := hc
    · rw [h0, pmono_zero]
      simp
    · rw [pmono]
      split <;> simp
      omega
  case padd qd qs =>
    have h1 := hfit' qd
    have h2 := hfit' qs
    rw [padd]
    split <;> exact (norm_length_le _).trans (by rw [length_xorAt]; omega)
  case pmul qd qx qy =>
    rw [pmul]
    split
    · simp
    next h0 =>
      have hlen := (or_assoc.2 hc.2).resolve_left h0
      exact (norm_length_le _).trans (by rw [length_mulInto, List.length_replicate]; omega)
  case pscal qd rk => exact (length_pscal_le (hq qd) _).trans (hfit' qd)
  case pshift qd rk =>
    rw [pshift]
    split
    · simp
    next h0 => simpa using hc.2.resolve_left h0
  case pcopy qd qs => exact hfit' qs
  case pld => exact (norm_length_le _).trans (by rw [length_blockElems]; omega)
  case rsgen qd rp =>
    rw [← deg_succ (genPoly_ok M _).1, (monic_genPoly M _).2]
    omega
  case rssyn =>
    refine (norm_length_le _).trans ?_
    rw [List.length_reverse, syndromes, List.length_map, List.length_range]
    omega
  case rseuc qsig qomg qs rp =>
    cases he : euclid s.field (s.sreg rp).toNat (s.qreg qs) with
    | none => exact nofun
    | some d =>
      have hP : 1 ≤ (s.sreg rp).toNat := Nat.one_le_iff_ne_zero.2 fun e => hc.2.2.1 (BitVec.eq_of_toNat_eq e)
      obtain ⟨-, hs, ho⟩ := euclid_eq_some_iff.1 he
      obtain ⟨hok, hN, hr⟩ := eucEnd_ok M hP (hq qs)
      have ht := hN.t
      have hqs := hfit' qs
      have hdqs := deg_succ (hq qs)
      have hdt := deg_succ hok.t
      have hdr := deg_succ hok.r
      simp only [Option.elim_some, List.mem_cons, List.not_mem_nil, or_false, forall_eq_or_imp, forall_eq, hs, ho]
      exact ⟨(length_pscal_le hok.t _).trans (by omega), (length_pscal_le hok.r _).trans (by omega)⟩

end

/-- A result keeps the polynomial registers in normal form over the field. -/
theorem fieldQregsOk_result (i : Instr) (s : State) (hs : FieldQregsOk s) (hc : FirstFailing (checksOf i s) none) :
    FieldQregsOk (result i s) := by
  obtain ⟨hok, hvalid, hinvalid⟩ := hs
  by_cases hi : mnemonicOf i = "FCFG"
  · cases i <;> simp only [mnemonicOf, String.reduceEq] at hi
    case fcfg rsize rgen rbase =>
      have hclear (F : FieldCfg) (q : QReg) : (commitField F s).qreg q = [0] := by simp [State.qreg, commitField, Vector.get]
      rw [result]
      cases hF : buildField (s.sreg rsize).toNat (s.sreg rgen).toNat (s.sreg rbase).toNat with
      | none => exact ⟨.inl rfl, nofun, fun _ => hclear _⟩
      | some F =>
        have hokF : FieldOk F := .inr ⟨_, _, _, hF⟩
        refine ⟨hokF, fun hv q => ?_, fun _ => hclear _⟩
        obtain ⟨K, _, val, M⟩ := exists_fieldModel hokF hv
        rw [hclear]
        exact polyOk_zeroPoly M
  · have hf : (result i s).field = s.field := result_keeps (·.field) i s (hfield := fun h => absurd h hi)
    rw [FieldQregsOk, QregsOk, hf]
    refine ⟨hok, fun hv => ?_, fun hv => ?_⟩
    · obtain ⟨K, _, val, M⟩ := exists_fieldModel hok hv
      exact forall_qreg_result hi (hvalid hv) (polyOk_writtenPolys M (hvalid hv) hc)
    · refine fun q => (result_keeps (·.qreg q) i s (hQ := fun d hd => ?_) (hfield := fun h => absurd h hi)).trans (hinvalid hv q)
      exact absurd (valid_of_checks (List.ne_nil_of_mem hd) hc) (by simp [hv])

/-- Every polynomial register is [0] after the registers are cleared. -/
theorem qreg_reset (q : QReg) : State.reset.qreg q = [0] := by
  simp [State.qreg, State.reset, Vector.get]

theorem fieldQregsOk_kept : KeptByUpdates FieldQregsOk where
  data {u v} h hu := by
    have hf : v.field = u.field := congrArg Data.field h
    have hr : v.qregs = u.qregs := congrArg Data.qregs h
    have hq (q : QReg) : v.qreg q = u.qreg q := by rw [State.qreg, hr, State.qreg]
    simpa only [FieldQregsOk, QregsOk, hf, hq] using hu
  result := fieldQregsOk_result
  noField _ _ := ⟨.inl rfl, nofun, fun _ => qreg_reset⟩
  reset _ _ := ⟨.inl rfl, nofun, fun _ => qreg_reset⟩
  write _ _ _ _ h := h

/-- Settles O57: every polynomial a command writes is in normal form over the field. -/
theorem stepKeepsPolynomials : Obligations.StepKeepsPolynomials :=
  fun _ _ hf hq h => (fieldQregsOk_kept.step ⟨hf, hq⟩ h).2

/-- The part of the invariant about the field, the polynomial registers and their lengths. -/
def FieldQregsFit (s : State) : Prop :=
  FieldQregsOk s ∧ QregsFit s

/-- A result keeps the polynomial registers within POLY_MAXLEN coefficients. -/
theorem fieldQregsFit_result (i : Instr) (s : State) (hs : FieldQregsFit s) (hc : FirstFailing (checksOf i s) none) :
    FieldQregsFit (result i s) := by
  obtain ⟨hfq, hfit⟩ := hs
  refine ⟨fieldQregsOk_result i s hfq hc, ?_⟩
  by_cases hi : mnemonicOf i = "FCFG"
  · cases i <;> simp only [mnemonicOf, String.reduceEq] at hi
    case fcfg rsize rgen rbase => exact fun q => by simp [result, commitField, State.qreg, Vector.get, Config.polyMaxLen]
  by_cases hd : polyDests i = []
  · intro q
    have hkept : (result i s).qreg q = s.qreg q :=
      result_keeps (·.qreg q) i s (hQ := by simp [hd]) (hfield := fun h => absurd h hi)
    rw [hkept]
    exact hfit q
  · have hv := valid_of_checks hd hc
    obtain ⟨K, _, val, M⟩ := exists_fieldModel hfq.1 hv
    exact forall_qreg_result (Q := fun p => p.length ≤ 4096) hi hfit (length_writtenPolys M (hfq.2.1 hv) hc hfit)

theorem fieldQregsFit_kept : KeptByUpdates FieldQregsFit where
  data {u v} h hu := by
    have hr : v.qregs = u.qregs := congrArg Data.qregs h
    refine ⟨fieldQregsOk_kept.data h hu.1, fun q => ?_⟩
    rw [State.qreg, hr]
    exact hu.2 q
  result := fieldQregsFit_result
  noField u h := ⟨fieldQregsOk_kept.noField u h.1, fun q => (congrArg List.length (qreg_reset q)).le.trans (by decide)⟩
  reset u h := ⟨fieldQregsOk_kept.reset u h.1, fun q => (congrArg List.length (qreg_reset q)).le.trans (by decide)⟩
  write _ _ _ _ h := h

/-- Settles O58: the checks bound what the commands write, and the solver's degrees stay within its first remainder's. -/
theorem stepKeepsPolynomialLength : Obligations.StepKeepsPolynomialLength :=
  fun _ _ hf hq hfit h => (fieldQregsFit_kept.step ⟨⟨hf, hq⟩, hfit⟩ h).2

/-! ### Safety -/

/-- Every step answers a next state (70_reset_and_hazards.md R463). -/
theorem step_isNext (s : State) : ∃ t, step s = .next t := by
  have hrun (w : Word) (u : State) : ∃ t, runWord w u = .next t := by
    obtain ⟨i, -, hrun⟩ | ⟨e, -, hrun⟩ := runWord_cases w u <;> rw [hrun]
    · exact exec_isNext i u
    · exact ⟨_, rfl⟩
  rcases step_cases s with ⟨-, -, he⟩ | ⟨op, rest, k, -, he⟩ | ⟨w, rest, k, -, -, -, he⟩ | ⟨w, k, -, -, he⟩ |
    ⟨w, rest, k, -, -, -, he⟩ <;> rw [he]
  · exact ⟨_, rfl⟩
  · exact ⟨_, rfl⟩
  · exact ⟨_, rfl⟩
  · exact hrun _ _
  · exact hrun _ _

/-- Settles O60: every step answers a next state, and keeps each part of the invariant. -/
theorem everyStepIsSafe : Obligations.EveryStepIsSafe := by
  intro s ⟨hfield, hqregs, hqfit, hrbuf, hstream, hmem, hfault, hfifo, hmenc⟩
  obtain ⟨t, ht⟩ := step_isNext s
  obtain ⟨hfield', hrbuf'⟩ := stepKeepsField s t hfield hrbuf ht
  obtain ⟨hstream', hmenc'⟩ := stepKeepsStream s t hstream hmenc ht
  obtain ⟨hfault', hfifo', -⟩ := stepKeepsFaultAndFifo s t hfault hfifo ht
  exact ⟨t, ht, hfield', stepKeepsPolynomials s t hfield hqregs ht, stepKeepsPolynomialLength s t hfield hqregs hqfit ht,
    hrbuf', hstream', stepKeepsMemory s t hmem ht, hfault', hfifo', hmenc'⟩

end Sys2Proof.Machine
end

section
/-! PROOF. RSFIX (44_rs_decoder.md R270 to R274): which positions the correction loop changes, and by what. -/

namespace Sys2Proof.Machine

open Polynomial

/-! ### Denominators -/

/-- R274's product over the locators left, in the order of the loop, is the product over the other roots. -/
theorem fixDenom_eq_foldl (F : FieldCfg) (k : Nat) (rk : Elem) (i : Nat) (xs : List Elem) (den : Elem) :
    fixDenom F k rk i xs den =
      (((if i ≤ k then xs.eraseIdx (k - i) else xs).map (fun x => 1 ^^^ gmul F x rk)).foldl (fun a b => gmul F a b) den) := by
  induction xs generalizing i den with
  | nil => simp [fixDenom]
  | cons x rest ih =>
    rw [fixDenom, ih]
    rcases lt_trichotomy i k with hlt | rfl | hgt
    · rw [if_neg hlt.ne, if_pos (by omega), if_pos (by omega), show k - i = k - (i + 1) + 1 by omega, List.eraseIdx_cons_succ]
      rfl
    · simp
    · rw [if_neg hgt.ne', if_neg (by omega), if_neg (by omega)]
      rfl

/-- The loop's denominator is R274's. -/
theorem fixDenom_eq_forneyDenom (F : FieldCfg) (roots : List Elem) (k : Nat) (rk : Elem) :
    fixDenom F k rk 0 (roots.map (ginv F)) 1 = forneyDenom F roots k rk := by
  rw [fixDenom_eq_foldl, if_pos (Nat.zero_le k), Nat.sub_zero, forneyDenom, elemProd, ← List.eraseIdx_map, List.eraseIdx_map,
    List.eraseIdx_map, List.map_map]
  rfl

/-! ### The correction loop -/

/-- The exponent of the locator of the root `r` (44_rs_decoder.md R271). -/
def locatorLog (F : FieldCfg) (r : Elem) : Nat :=
  logAt F (ginv F r)

/-- One root of R270's loop. -/
theorem fixLoop_cons (F : FieldCfg) (omega : Poly) (X : List Elem) (k : Nat) (r : Elem) (rest w : List Elem) (cnt : Nat) :
    fixLoop F omega X k (r :: rest) w cnt =
      if w.length ≤ locatorLog F r then fixLoop F omega X (k + 1) rest w cnt
      else fixLoop F omega X (k + 1) rest
        (w.modify (w.length - 1 - locatorLog F r) (fun v => v ^^^ fixMagnitude F omega X k r)) (cnt + 1) := rfl

/-- R270's loop counts the roots located in the word. -/
theorem fixLoop_count (F : FieldCfg) (omega : Poly) (X : List Elem) (k : Nat) (roots w : List Elem) (cnt : Nat) :
    (fixLoop F omega X k roots w cnt).2 = cnt + (roots.filter (fun r => decide (locatorLog F r < w.length))).length := by
  induction roots generalizing k w cnt with
  | nil => rfl
  | cons r rest ih =>
    rw [fixLoop_cons]
    split
    next h => rw [ih, List.filter_cons_of_neg (by simpa using h)]
    next h =>
      rw [ih, List.filter_cons_of_pos (by simpa using h), List.length_modify, List.length_cons]
      omega

/-- A position no root locates keeps its value (44_rs_decoder.md R272). -/
theorem fixLoop_of_not_located (F : FieldCfg) (omega : Poly) (X : List Elem) (k : Nat) (roots w : List Elem) (cnt : Nat) {pos : Nat}
    (h : ∀ r ∈ roots, locatorLog F r < w.length → w.length - 1 - locatorLog F r ≠ pos) :
    (fixLoop F omega X k roots w cnt).1[pos]? = w[pos]? := by
  induction roots generalizing k w cnt with
  | nil => rfl
  | cons r rest ih =>
    obtain ⟨hr, hrest⟩ := List.forall_mem_cons.1 h
    rw [fixLoop_cons]
    split
    next => exact ih _ _ _ hrest
    next hlt =>
      rw [ih _ _ _ (by simpa only [List.length_modify] using hrest), List.getElem?_modify_ne _ _ (hr (by omega))]

/-- A position one root locates is changed by the magnitude of that root (44_rs_decoder.md R272, R274). -/
theorem fixLoop_of_located (F : FieldCfg) (omega : Poly) (X : List Elem) (k : Nat) (roots w : List Elem) (cnt : Nat)
    (hnd : (roots.map (locatorLog F)).Nodup) {i : Nat} (hi : i < roots.length) (hlt : locatorLog F roots[i] < w.length) :
    (fixLoop F omega X k roots w cnt).1[w.length - 1 - locatorLog F roots[i]]? =
      (w[w.length - 1 - locatorLog F roots[i]]?).map (fun v => v ^^^ fixMagnitude F omega X (k + i) roots[i]) := by
  induction roots generalizing k w cnt i with
  | nil => cases hi
  | cons r rest ih =>
    rw [List.map_cons, List.nodup_cons] at hnd
    obtain ⟨hr, hrest⟩ := hnd
    have hne (q : Elem) (hq : q ∈ rest) : locatorLog F q ≠ locatorLog F r := fun he => hr (he ▸ List.mem_map_of_mem hq)
    rw [fixLoop_cons]
    cases i with
    | zero =>
      rw [List.getElem_cons_zero] at hlt ⊢
      rw [if_neg (by omega), fixLoop_of_not_located, List.getElem?_modify_eq, Nat.add_zero]
      · rfl
      · intro q hq hql
        rw [List.length_modify] at hql ⊢
        have := hne q hq
        omega
    | succ i =>
      have hi' : i < rest.length := Nat.lt_of_succ_lt_succ hi
      have hmem := List.getElem_mem hi'
      rw [List.getElem_cons_succ] at hlt ⊢
      rw [show k + (i + 1) = k + 1 + i by omega]
      split
      next => exact ih _ _ _ hrest hi' hlt
      next hlt' =>
        have hstep := ih (k + 1) (w.modify (w.length - 1 - locatorLog F r) (fun v => v ^^^ fixMagnitude F omega X k r)) (cnt + 1)
          hrest hi' (by rwa [List.length_modify])
        have := hne _ hmem
        rw [List.length_modify, List.getElem?_modify_ne _ _ (by omega)] at hstep
        exact hstep

/-! ### The roots of the buffer -/

section
variable {F : FieldCfg} {K : Type} [Field K] {val : Elem → K} (M : FieldModel F val)
include M

/-- Nonzero elements are determined by their inverses' logarithms. -/
theorem locatorLog_inj {x y : Elem} (hx : IsElem F x) (hx0 : x ≠ 0) (hy : IsElem F y) (hy0 : y ≠ 0)
    (h : locatorLog F x = locatorLog F y) : x = y := by
  have hne {z : Elem} (hz : IsElem F z) (hz0 : z ≠ 0) : ginv F z ≠ 0 := fun h0 => by
    have hinv := M.ginv hz hz0
    rw [h0, M.zero, zero_eq_inv] at hinv
    exact hz0 ((M.val_eq_zero_iff hz).1 hinv.symm)
  have hxi := (M.alphaPow_logAt (M.elem_ginv hx hx0) (hne hx hx0)).2
  have hyi := (M.alphaPow_logAt (M.elem_ginv hy hy0) (hne hy hy0)).2
  rw [show logAt F (ginv F x) = logAt F (ginv F y) from h, hyi] at hxi
  refine M.inj hx hy (inv_injective ?_)
  rw [← M.ginv hx hx0, ← M.ginv hy hy0, hxi]

/-- The roots of a buffer have distinct locators (44_rs_decoder.md R271). -/
theorem nodup_locatorLog {roots : List Elem} (hnd : roots.Nodup) (hr : ∀ x ∈ roots, x ≠ 0 ∧ IsElem F x) :
    (roots.map (locatorLog F)).Nodup :=
  hnd.map_on fun x hx y hy => locatorLog_inj M (hr x hx).2 (hr x hx).1 (hr y hy).2 (hr y hy).1

/-- A factor of a denominator (44_rs_decoder.md R274). -/
theorem denomFactor_ok {r x : Elem} (hr : IsElem F r) (hr0 : r ≠ 0) (hx : IsElem F x) :
    IsElem F (1 ^^^ gmul F (ginv F r) x) ∧ val (1 ^^^ gmul F (ginv F r) x) = 1 - (val r)⁻¹ * val x := by
  have hg := M.elem_gmul (M.elem_ginv hr hr0) hx
  exact ⟨M.elem_xor M.elem_one hg, by rw [M.xor M.elem_one hg, M.gmul (M.elem_ginv hr hr0) hx, M.ginv hr hr0, M.one, M.sub_eq_add]⟩

/-- The denominator is a product over the other roots, and not 0 (44_rs_decoder.md R274). -/
theorem forneyDenom_ok {roots : List Elem} (hnd : roots.Nodup) (hr : ∀ x ∈ roots, x ≠ 0 ∧ IsElem F x) {k : Nat}
    (hk : k < roots.length) : IsElem F (forneyDenom F roots k roots[k]) ∧
      val (forneyDenom F roots k roots[k]) = ((roots.eraseIdx k).map (fun r => 1 - (val r)⁻¹ * val roots[k])).prod ∧
      forneyDenom F roots k roots[k] ≠ 0 := by
  have hmem (r : Elem) (h : r ∈ roots.eraseIdx k) : r ≠ 0 ∧ IsElem F r := hr r (List.mem_of_mem_eraseIdx h)
  have hkr := hr _ (List.getElem_mem hk)
  have hfactor (r : Elem) (h : r ∈ roots.eraseIdx k) := denomFactor_ok M (hmem r h).2 (hmem r h).1 hkr.2
  obtain ⟨he, hv⟩ := M.elemProd (xs := (roots.eraseIdx k).map (fun r => 1 ^^^ gmul F (ginv F r) roots[k])) (by
    simp only [List.forall_mem_map]
    exact fun r h => (hfactor r h).1)
  have hval : val (forneyDenom F roots k roots[k]) = ((roots.eraseIdx k).map (fun r => 1 - (val r)⁻¹ * val roots[k])).prod := by
    rw [forneyDenom, hv, List.map_map]
    exact congrArg List.prod (List.map_congr_left fun r h => (hfactor r h).2)
  refine ⟨he, hval, fun h0 => ?_⟩
  have hprod := (M.val_eq_zero_iff he).2 h0
  rw [forneyDenom] at h0
  rw [← forneyDenom, hval, List.prod_eq_zero_iff, List.mem_map] at hprod
  obtain ⟨r, hmr, hzero⟩ := hprod
  have hr0 : val r ≠ 0 := fun h => (hmem r hmr).1 ((M.val_eq_zero_iff (hmem r hmr).2).1 h)
  have heq : val r = val roots[k] := by
    rw [sub_eq_zero, eq_comm, inv_mul_eq_one₀ hr0] at hzero
    exact hzero
  obtain ⟨i, hi, hik, hri⟩ := List.mem_eraseIdx_iff_getElem.1 hmr
  exact hik ((List.Nodup.getElem_inj_iff hnd).1 (hri.trans (M.inj (hmem r hmr).2 hkr.2 heq)))

/-- Forney's magnitude times its denominator (44_rs_decoder.md R274). -/
theorem fixMagnitude_ok {omega : Poly} (ho : PolyOk F omega) {roots : List Elem} (hnd : roots.Nodup)
    (hr : ∀ x ∈ roots, x ≠ 0 ∧ IsElem F x) {k : Nat} (hk : k < roots.length) :
    IsElem F (fixMagnitude F omega (roots.map (ginv F)) k roots[k]) ∧
      val (fixMagnitude F omega (roots.map (ginv F)) k roots[k]) * val (forneyDenom F roots k roots[k]) =
        (polyOf val omega).eval (val roots[k]) * val roots[k] ^ F.base.toNat := by
  obtain ⟨hd, -, hd0⟩ := forneyDenom_ok M hnd hr hk
  obtain ⟨hk0, hke⟩ := hr _ (List.getElem_mem hk)
  obtain ⟨hpe, hpv⟩ := peval_ok M ho.allElem hke
  obtain ⟨hpow, hpowv⟩ := M.gpow hke hk0 F.base.toNat
  have hnum := M.elem_gmul hpe hpow
  have hinv := M.elem_ginv hd hd0
  have hne : val (forneyDenom F roots k roots[k]) ≠ 0 := fun h => hd0 ((M.val_eq_zero_iff hd).1 h)
  rw [fixMagnitude, fixDenom_eq_forneyDenom]
  exact ⟨M.elem_gmul hnum hinv, by
    rw [M.gmul hnum hinv, M.ginv hd hd0, M.gmul hpe hpow, hpv, hpowv, inv_mul_cancel_right₀ hne]⟩

end

/-- Settles O38: the locators are distinct, so each position is corrected at most once, by the magnitude of its root. -/
theorem rsfixCorrects : Obligations.RsfixCorrects := by
  intro s rd raddr rn qomg hok hv hrbuf hq hread
  obtain ⟨K, _, val, M⟩ := exists_fieldModel hok hv
  obtain ⟨hnd, hr⟩ := hrbuf
  have hlen : (blockElems s (s.sreg raddr).toNat (s.sreg rn).toNat).length = (s.sreg rn).toNat := length_blockElems _ _ _
  have hlog := nodup_locatorLog M hnd hr
  refine ⟨_, _, (length_fixWord _ _ _ _).trans hlen,
    exec_of_checks (i := .rsfix rd raddr rn qomg) (.inl ⟨hv, .inl ⟨hread.1, .inl ⟨hread.2, rfl⟩⟩⟩), ?_, ?_, ?_, ?_, ?_⟩
  · rw [fixWord, fixLoop_count, Nat.zero_add, hlen]
    rfl
  · exact List.Nodup.of_map _ (by rw [List.map_map]; exact hlog)
  · exact fun k hk => (forneyDenom_ok M hnd hr hk).2.2
  · intro pos hpos hnone
    refine fixLoop_of_not_located _ _ _ _ _ _ _ fun r hrm hlt he => hnone r hrm ?_
    rw [hlen] at hlt he
    rw [locatorLog] at hlt he
    omega
  · intro k hk pos hpos hloc
    obtain ⟨hm, hmv⟩ := fixMagnitude_ok M (hq.1 hv qomg) hnd hr hk
    obtain ⟨hk0, hke⟩ := hr _ (List.getElem_mem hk)
    obtain ⟨hpe, hpv⟩ := peval_ok M (hq.1 hv qomg).allElem hke
    obtain ⟨hpow, hpowv⟩ := M.elemPow hke s.field.base.toNat
    obtain ⟨hd, -⟩ := forneyDenom_ok M hnd hr hk
    refine ⟨_, hm, ?_, ?_⟩
    · have hfix := fixLoop_of_located s.field (s.qreg qomg) (s.rbuf.map (ginv s.field)) 0 s.rbuf
        (blockElems s (s.sreg raddr).toNat (s.sreg rn).toNat) 0 hlog hk (by rw [hlen, locatorLog]; omega)
      rw [hlen, show (s.sreg rn).toNat - 1 - locatorLog s.field s.rbuf[k] = pos by rw [locatorLog]; omega, Nat.zero_add] at hfix
      exact hfix
    · exact M.inj (M.elem_gmul hm hd) (M.elem_gmul hpe hpow) (by rw [M.gmul hm hd, hmv, M.gmul hpe hpow, hpv, hpowv])

end Sys2Proof.Machine
end

section
/-! PROOF. Locator and evaluator polynomials of an error pattern over any field (44_rs_decoder.md R255 to R274): the key
equation, and that every solution within the degree bounds is a multiple of them. -/

namespace Sys2Proof.Machine

open Polynomial

section
variable {K : Type} [Field K] (I : Finset Nat) (x y : Nat → K)

/-- The product of 1 - x_i X: its roots are the inverses of the locators `x` (44_rs_decoder.md R271). -/
noncomputable def locatorPoly : K[X] :=
  ∏ i ∈ I, (1 - C (x i) * X)

/-- The polynomial whose values give the magnitudes (44_rs_decoder.md R274). -/
noncomputable def evaluatorPoly : K[X] :=
  ∑ i ∈ I, C (y i) * ∏ k ∈ I.erase i, (1 - C (x k) * X)

/-- The first `P` power sums of the error pattern, as a polynomial (44_rs_decoder.md R251). -/
noncomputable def powerSums (P : Nat) : K[X] :=
  ∑ j ∈ Finset.range P, C (∑ i ∈ I, y i * x i ^ j) * X ^ j

theorem natDegree_linear_le (a : K) : (1 - C a * X).natDegree ≤ 1 :=
  (natDegree_sub_le _ _).trans (by simpa using (natDegree_C_mul_le a X).trans natDegree_X_le)

theorem natDegree_locatorPoly_le : (locatorPoly I x).natDegree ≤ I.card :=
  (natDegree_prod_le _ _).trans ((Finset.sum_le_card_nsmul _ _ 1 fun i _ => natDegree_linear_le (x i)).trans (by simp))

theorem natDegree_evaluatorPoly_le : (evaluatorPoly I x y).natDegree ≤ I.card - 1 := by
  refine natDegree_sum_le_of_forall_le _ _ fun i hi => (natDegree_C_mul_le _ _).trans ?_
  rw [← Finset.card_erase_of_mem hi]
  exact natDegree_locatorPoly_le (I.erase i) x

theorem eval_zero_locatorPoly : (locatorPoly I x).eval 0 = 1 := by
  simp [locatorPoly, eval_prod]

/-- A value is a root of the locator polynomial where it is the inverse of a locator. -/
theorem eval_locatorPoly_eq_zero_iff (a : K) : (locatorPoly I x).eval a = 0 ↔ ∃ i ∈ I, x i * a = 1 := by
  simp only [locatorPoly, eval_prod, Finset.prod_eq_zero_iff, eval_sub, eval_one, eval_mul, eval_C, eval_X, sub_eq_zero,
    eq_comm (a := (1 : K))]

/-- The key equation (44_rs_decoder.md R255). -/
theorem locatorPoly_mul_powerSums (P : Nat) :
    ∃ w : K[X], locatorPoly I x * powerSums I x y P = evaluatorPoly I x y + w * X ^ P := by
  have hgeom (i : Nat) : (1 - C (x i) * X) * ∑ j ∈ Finset.range P, C (x i ^ j) * X ^ j = 1 - C (x i ^ P) * X ^ P := by
    have h := mul_neg_geom_sum (C (x i) * X) P
    simpa only [mul_pow, C_pow] using h
  have hsums : powerSums I x y P = ∑ i ∈ I, C (y i) * ∑ j ∈ Finset.range P, C (x i ^ j) * X ^ j := by
    simp only [powerSums, map_sum, Finset.sum_mul, Finset.mul_sum, C_mul]
    rw [Finset.sum_comm]
    simp only [mul_assoc]
  refine ⟨-∑ i ∈ I, C (y i) * C (x i ^ P) * ∏ k ∈ I.erase i, (1 - C (x k) * X), ?_⟩
  rw [hsums, Finset.mul_sum, evaluatorPoly, neg_mul, Finset.sum_mul, ← sub_eq_add_neg, ← Finset.sum_sub_distrib]
  refine Finset.sum_congr rfl fun i hi => ?_
  rw [locatorPoly, ← Finset.mul_prod_erase I _ hi]
  linear_combination C (y i) * (∏ k ∈ I.erase i, (1 - C (x k) * X)) * hgeom i

variable {I x y} (hx : ∀ i ∈ I, x i ≠ 0) (hinj : Set.InjOn x I) (hy : ∀ i ∈ I, y i ≠ 0)

include hx in
/-- The evaluator at the inverse of a locator (44_rs_decoder.md R274). -/
theorem eval_evaluatorPoly {i : Nat} (hi : i ∈ I) :
    (evaluatorPoly I x y).eval (x i)⁻¹ = y i * ∏ k ∈ I.erase i, (1 - x k * (x i)⁻¹) := by
  rw [evaluatorPoly, eval_finsetSum, Finset.sum_eq_single i]
  · simp [eval_prod]
  · intro k hk hki
    rw [eval_mul, eval_prod, Finset.prod_eq_zero (Finset.mem_erase.2 ⟨hki.symm, hi⟩), mul_zero]
    simp [hx i hi]
  · exact fun h => absurd hi h

include hx hinj hy

theorem eval_evaluatorPoly_ne_zero {i : Nat} (hi : i ∈ I) : (evaluatorPoly I x y).eval (x i)⁻¹ ≠ 0 := by
  rw [eval_evaluatorPoly hx hi]
  refine mul_ne_zero (hy i hi) (Finset.prod_ne_zero_iff.2 fun k hk h0 => ?_)
  obtain ⟨hki, hkI⟩ := Finset.mem_erase.1 hk
  rw [sub_eq_zero, eq_comm, mul_inv_eq_one₀ (hx i hi)] at h0
  exact hki (hinj hkI hi h0)

/-- The locator and the evaluator have no common factor. -/
theorem isCoprime_locatorPoly_evaluatorPoly : IsCoprime (locatorPoly I x) (evaluatorPoly I x y) := by
  refine IsCoprime.prod_left fun i hi => ?_
  have hlinear : (1 - C (x i) * X : K[X]) = C (-x i) * (X - C (x i)⁻¹) := by
    rw [mul_sub, ← C_mul, neg_mul, mul_inv_cancel₀ (hx i hi), C_neg, C_neg, C_1]
    ring
  rw [hlinear]
  refine (isCoprime_mul_unit_left_left (isUnit_C.2 (neg_ne_zero.2 (hx i hi)).isUnit) _ _).2 ?_
  rw [(irreducible_X_sub_C _).coprime_iff_not_dvd, dvd_iff_isRoot]
  exact eval_evaluatorPoly_ne_zero hx hinj hy hi

/-- The power sums of a pattern of at most `P` errors are not all 0. -/
theorem powerSums_ne_zero {P : Nat} (hne : I.Nonempty) (hcard : I.card ≤ P) : powerSums I x y P ≠ 0 := by
  intro h0
  obtain ⟨w, hw⟩ := locatorPoly_mul_powerSums I x y P
  obtain ⟨i, hi⟩ := hne
  have hpos := Finset.card_pos.2 ⟨i, hi⟩
  rw [h0, mul_zero] at hw
  have hdvd : X ^ P ∣ evaluatorPoly I x y := ⟨-w, by linear_combination -hw⟩
  have hzero : evaluatorPoly I x y = 0 := by
    refine eq_zero_of_dvd_of_natDegree_lt hdvd ?_
    have := natDegree_evaluatorPoly_le I x y
    rw [natDegree_X_pow]
    omega
  refine eval_evaluatorPoly_ne_zero hx hinj hy hi ?_
  rw [hzero, eval_zero]

/-- A solution of the key equation within the degree bounds, with coprime cofactors, is the locator and the evaluator up to a
constant (44_rs_decoder.md R255). -/
theorem solution_unique {P : Nat} (hne : I.Nonempty) (hcard : 2 * I.card ≤ P) {t r u tLast uLast : K[X]}
    (hr : r = u * X ^ P + t * powerSums I x y P) (hdet : uLast * t + u * tLast = 1) (htdeg : 2 * t.natDegree ≤ P)
    (hrdeg : 2 * r.natDegree < P) : ∃ c : K, c ≠ 0 ∧ t = C c * locatorPoly I x ∧ r = C c * evaluatorPoly I x y := by
  obtain ⟨w, hw⟩ := locatorPoly_mul_powerSums I x y P
  have hpos := Finset.card_pos.2 hne
  have hcross : t * evaluatorPoly I x y = r * locatorPoly I x := by
    have hdvd : X ^ P ∣ r * locatorPoly I x - t * evaluatorPoly I x y :=
      ⟨u * locatorPoly I x + t * w, by rw [hr]; linear_combination t * hw⟩
    have hlt : (r * locatorPoly I x - t * evaluatorPoly I x y).natDegree < P := by
      have h1 := natDegree_sub_le (r * locatorPoly I x) (t * evaluatorPoly I x y)
      have h2 := natDegree_mul_le (p := r) (q := locatorPoly I x)
      have h3 := natDegree_mul_le (p := t) (q := evaluatorPoly I x y)
      have h4 := natDegree_locatorPoly_le I x
      have h5 := natDegree_evaluatorPoly_le I x y
      omega
    have hzero := eq_zero_of_dvd_of_natDegree_lt hdvd (by rwa [natDegree_X_pow])
    exact (sub_eq_zero.1 hzero).symm
  have hcop := isCoprime_locatorPoly_evaluatorPoly hx hinj hy
  have hloc0 : locatorPoly I x ≠ 0 := fun h => by
    have h1 := eval_zero_locatorPoly I x
    rw [h, eval_zero] at h1
    exact zero_ne_one h1
  obtain ⟨v, rfl⟩ := hcop.dvd_of_dvd_mul_right ⟨r, hcross.trans (mul_comm _ _)⟩
  have hrv : r = v * evaluatorPoly I x y := mul_left_cancel₀ hloc0 (by linear_combination -hcross)
  have huv : u = -(v * w) := by
    refine mul_right_cancel₀ (pow_ne_zero P X_ne_zero) ?_
    rw [hrv] at hr
    linear_combination -hr - v * hw
  have hunit : IsUnit v := by
    refine IsUnit.of_mul_eq_one (uLast * locatorPoly I x - w * tLast) ?_
    rw [huv] at hdet
    linear_combination hdet
  obtain ⟨c, hc, hcv⟩ := isUnit_iff.1 hunit
  refine ⟨c, hc.ne_zero, by rw [hcv, mul_comm], by rw [hrv, hcv]⟩

end

end Sys2Proof.Machine
end

section
/-! PROOF. Decoding a codeword of RSENC (43_rs_encoder.md R235, 44_rs_decoder.md R284): its syndromes are zero, and those of a
word with few replaced words are the power sums of the error pattern, which the solver and the correction loop undo. -/

namespace Sys2Proof.Machine

open Polynomial

/-! ### A received word -/

/-- `w` is the codeword `cw`, 0 at the `P` powers of alpha from FBASE on, with the words at the positions `I` replaced. -/
structure Received (F : FieldCfg) (P : Nat) (cw w : List Elem) (I : Finset Nat) : Prop where
  codeword : AllElem F cw
  received : AllElem F w
  length_eq : w.length = cw.length
  length_le : cw.length ≤ F.order
  zero : ∀ i < P, peval F cw (alphaPow F (F.base.toNat + i)) = 0
  mem_iff : ∀ i, i ∈ I ↔ w[i]? ≠ cw[i]?

/-- The value of the locator of position `i` of a word of `n` words (44_rs_decoder.md R271). -/
def locatorAt {K : Type} (val : Elem → K) (F : FieldCfg) (n i : Nat) : K :=
  val (alphaPow F (n - 1 - i))

/-- The error at position `i`. -/
def errorAt (cw w : List Elem) (i : Nat) : Elem :=
  (w[i]?).getD 0 ^^^ (cw[i]?).getD 0

/-- The coefficient of a position's locator in the power sums: the error times the locator to the power FBASE. -/
def weightAt {K : Type} [Field K] (val : Elem → K) (F : FieldCfg) (cw w : List Elem) (i : Nat) : K :=
  val (errorAt cw w i) * locatorAt val F cw.length i ^ F.base.toNat

section
variable {F : FieldCfg} {K : Type} [Field K] {val : Elem → K} (M : FieldModel F val)
include M

theorem elem_getD {p : List Elem} (hp : AllElem F p) (i : Nat) : IsElem F ((p[i]?).getD 0) := by
  cases h : p[i]? with
  | none => exact M.elem_zero
  | some x => exact hp x (List.mem_of_getElem? h)

theorem locatorAt_ne_zero (n i : Nat) : locatorAt val F n i ≠ 0 := fun h =>
  M.alphaPow_ne_zero _ ((M.val_eq_zero_iff (M.elem_alphaPow _)).1 h)

omit M in
/-- A polynomial's value as a sum over the positions of its sequence. -/
theorem eval_polyOf_eq_sum (p : List Elem) (z : K) :
    (polyOf val p).eval z = ∑ i ∈ Finset.range p.length, val ((p[i]?).getD 0) * z ^ (p.length - 1 - i) := by
  induction p with
  | nil => simp
  | cons x rest ih =>
    rw [polyOf_cons, eval_add, ih, List.length_cons, Finset.sum_range_succ', add_comm]
    congr 1
    · refine Finset.sum_congr rfl fun i _ => ?_
      rw [List.getElem?_cons_succ, show rest.length + 1 - 1 - (i + 1) = rest.length - 1 - i by omega]
    · simp

section
variable {P : Nat} {cw w : List Elem} {I : Finset Nat} (R : Received F P cw w I)
include R

namespace Received

omit [Field K] M in
theorem lt_of_mem {i : Nat} (hi : i ∈ I) : i < cw.length := by
  by_contra h
  have hlen := R.length_eq
  exact (R.mem_iff i).1 hi (by rw [List.getElem?_eq_none (by omega), List.getElem?_eq_none (by omega)])

theorem elem_errorAt (i : Nat) : IsElem F (errorAt cw w i) :=
  M.elem_xor (elem_getD M R.received i) (elem_getD M R.codeword i)

omit [Field K] M in
theorem errorAt_eq_zero_iff (i : Nat) : errorAt cw w i = 0 ↔ i ∉ I := by
  have hlen := R.length_eq
  rw [R.mem_iff, not_not, errorAt]
  by_cases h : i < cw.length
  · rw [List.getElem?_eq_getElem (by omega), List.getElem?_eq_getElem h, Option.getD_some, Option.getD_some, Option.some.injEq]
    exact BitVec.xor_eq_zero_iff
  · rw [List.getElem?_eq_none (by omega), List.getElem?_eq_none (by omega)]
    simp

/-- Positions of a word no longer than the order have distinct locators. -/
theorem locatorAt_injOn : Set.InjOn (locatorAt val F cw.length) I := by
  intro i hi j hj h
  have hi' := R.lt_of_mem hi
  have hj' := R.lt_of_mem hj
  have hle := R.length_le
  have hlog := congrArg (logAt F) (M.inj (M.elem_alphaPow _) (M.elem_alphaPow _) h)
  rw [M.logAt_alphaPow (by omega), M.logAt_alphaPow (by omega)] at hlog
  omega

theorem weightAt_ne_zero {i : Nat} (hi : i ∈ I) : weightAt val F cw w i ≠ 0 := by
  refine mul_ne_zero (fun h => ?_) (pow_ne_zero _ (locatorAt_ne_zero M cw.length i))
  exact (R.errorAt_eq_zero_iff i).1 ((M.val_eq_zero_iff (R.elem_errorAt M i)).1 h) hi

/-! ### The syndromes -/

/-- A syndrome is a power sum of the error pattern (44_rs_decoder.md R251). -/
theorem syndrome {j : Nat} (hj : j < P) : val (peval F w (alphaPow F (F.base.toNat + j))) =
    ∑ i ∈ I, weightAt val F cw w i * locatorAt val F cw.length i ^ j := by
  have hz := M.elem_alphaPow (F.base.toNat + j)
  have hzero := (peval_ok M R.codeword hz).2
  rw [R.zero j hj, M.zero, eval_polyOf_eq_sum] at hzero
  have hval := (peval_ok M R.received hz).2
  rw [eval_polyOf_eq_sum, R.length_eq, ← sub_zero (∑ i ∈ Finset.range cw.length, _), hzero, ← Finset.sum_sub_distrib] at hval
  have hsub : I ⊆ Finset.range cw.length := fun i hi => Finset.mem_range.2 (R.lt_of_mem hi)
  rw [hval, ← Finset.sum_subset hsub]
  · refine Finset.sum_congr rfl fun i _ => ?_
    have hpow : val (alphaPow F (F.base.toNat + j)) ^ (cw.length - 1 - i) =
        locatorAt val F cw.length i ^ F.base.toNat * locatorAt val F cw.length i ^ j := by
      rw [locatorAt, M.alphaPow (F.base.toNat + j), M.alphaPow (cw.length - 1 - i), ← pow_add, ← pow_mul, ← pow_mul, mul_comm]
    rw [← sub_mul, hpow, M.sub_eq_add, ← M.xor (elem_getD M R.received i) (elem_getD M R.codeword i), weightAt, errorAt, mul_assoc]
  · intro i _ hi
    have h0 := (R.errorAt_eq_zero_iff i).2 hi
    rw [BitVec.xor_eq_zero_iff.1 h0, sub_self]

theorem polyOf_syndromePoly : polyOf val (syndromePoly (syndromes F w P)) =
    powerSums I (locatorAt val F cw.length) (weightAt val F cw w) P := by
  ext k
  rw [coeff_polyOf M, coef_syndromePoly, powerSums, finsetSum_coeff]
  simp only [coeff_C_mul_X_pow, Finset.sum_ite_eq, Finset.mem_range]
  split
  next h => exact R.syndrome M h
  next => exact M.zero

/-- With an error some syndrome is not zero (44_rs_decoder.md R283). -/
theorem not_allZero (hne : I.Nonempty) (hcard : I.card ≤ P) : ¬ allZero (syndromes F w P) = true := by
  rw [allZero_syndromes_iff]
  intro h
  refine powerSums_ne_zero (fun i _ => locatorAt_ne_zero M cw.length i) (R.locatorAt_injOn M) (fun i hi => R.weightAt_ne_zero M hi)
    hne hcard ?_
  rw [← R.polyOf_syndromePoly M]
  ext k
  rw [coeff_polyOf M, coef_syndromePoly, coeff_zero]
  split
  next hk => rw [h k hk, M.zero]
  next => exact M.zero

/-- The solver finds the locator and the evaluator of the pattern (44_rs_decoder.md R255, R261). -/
theorem euclid_eq (hne : I.Nonempty) (hcard : 2 * I.card ≤ P) : ∃ sigma omega,
    euclid F P (syndromePoly (syndromes F w P)) = some (sigma, omega) ∧ PolyOk F sigma ∧ PolyOk F omega ∧
      polyOf val sigma = locatorPoly I (locatorAt val F cw.length) ∧
      polyOf val omega = evaluatorPoly I (locatorAt val F cw.length) (weightAt val F cw w) := by
  have hpos := Finset.card_pos.2 hne
  have hP : 1 ≤ P := by omega
  have hS := polyOk_syndromePoly M R.received P
  have hdeg : deg (syndromePoly (syndromes F w P)) ≤ P := by
    have hle := norm_length_le (syndromes F w P).reverse
    rw [List.length_reverse, syndromes, List.length_map, List.length_range, ← syndromes, ← syndromePoly] at hle
    rw [deg]
    omega
  obtain ⟨hok, hN, hr⟩ := eucEnd_ok M hP hS
  obtain ⟨u, uLast, -, hbez, hdet⟩ := eucEnd_bezout M hP hS hdeg
  have hlast := hN.rLast
  have ht := hN.t
  rw [R.polyOf_syndromePoly M] at hbez
  obtain ⟨k, hk0, htk, hrk⟩ := solution_unique (fun i _ => locatorAt_ne_zero M cw.length i) (R.locatorAt_injOn M)
    (fun i hi => R.weightAt_ne_zero M hi) hne hcard hbez hdet (by rw [natDegree_polyOf M hok.t]; omega)
    (by rw [natDegree_polyOf M hok.r]; exact hr)
  have hcoef : val (coef (eucEnd F P (syndromePoly (syndromes F w P))).t 0) = k := by
    rw [← coeff_polyOf M, htk, coeff_C_mul, coeff_zero_eq_eval_zero, eval_zero_locatorPoly, mul_one]
  have h0 : coef (eucEnd F P (syndromePoly (syndromes F w P))).t 0 ≠ 0 := fun h => hk0 (by rw [← hcoef, h, M.zero])
  obtain ⟨hs, ho, l, -, hl, hsv, hov⟩ := euclid_ok M hP hS (euclid_eq_some_iff.2 ⟨h0, rfl, rfl⟩)
  rw [hcoef] at hl
  have hkl : C l * C k = (1 : K[X]) := by rw [← C_mul, hl, C_1]
  refine ⟨_, _, euclid_eq_some_iff.2 ⟨h0, rfl, rfl⟩, hs, ho, ?_, ?_⟩
  · rw [hsv, htk]
    linear_combination locatorPoly I (locatorAt val F cw.length) * hkl
  · rw [hov, hrk]
    linear_combination evaluatorPoly I (locatorAt val F cw.length) (weightAt val F cw w) * hkl

/-! ### The roots and the correction -/

section
variable {sigma : Poly} (hs : PolyOk F sigma) (hsv : polyOf val sigma = locatorPoly I (locatorAt val F cw.length))
include hs hsv

/-- Each root that PZEROS finds is the inverse of the locator of an error position (44_rs_decoder.md R271, R272). -/
theorem position_of_root {r : Elem} (hr : r ∈ pzeros F sigma) : cw.length - 1 - locatorLog F r ∈ I ∧
    locatorLog F r < cw.length ∧ locatorAt val F cw.length (cw.length - 1 - locatorLog F r) = (val r)⁻¹ := by
  obtain ⟨h0, he, hzero⟩ := (mem_pzeros M).1 hr
  rw [peval_eq_zero_iff M hs.allElem he, hsv, eval_locatorPoly_eq_zero_iff] at hzero
  obtain ⟨i, hi, hone⟩ := hzero
  have hlt := R.lt_of_mem hi
  have hle := R.length_le
  have hinv : locatorAt val F cw.length i = (val r)⁻¹ := eq_inv_of_mul_eq_one_left hone
  have hlog : locatorLog F r = cw.length - 1 - i := by
    rw [locatorLog, M.inj (M.elem_ginv he h0) (M.elem_alphaPow _) ((M.ginv he h0).trans hinv.symm), M.logAt_alphaPow (by omega)]
  have hpos : cw.length - 1 - locatorLog F r = i := by omega
  rw [hpos]
  exact ⟨hi, by omega, hinv⟩

/-- The locator of each error position is the inverse of a root that PZEROS finds. -/
theorem exists_root {i : Nat} (hi : i ∈ I) : ∃ r ∈ pzeros F sigma, cw.length - 1 - locatorLog F r = i := by
  have hne := locatorAt_ne_zero M cw.length i
  obtain ⟨r, he, hr⟩ := M.surj (locatorAt val F cw.length i)⁻¹
  have h0 : r ≠ 0 := fun h => inv_ne_zero hne (by rw [← hr, h, M.zero])
  have hmem : r ∈ pzeros F sigma := by
    rw [mem_pzeros M, peval_eq_zero_iff M hs.allElem he, hsv, eval_locatorPoly_eq_zero_iff, hr]
    exact ⟨h0, he, i, hi, mul_inv_cancel₀ hne⟩
  obtain ⟨hposI, -, hloc⟩ := R.position_of_root M hs hsv hmem
  rw [hr, inv_inv] at hloc
  exact ⟨r, hmem, R.locatorAt_injOn M hposI hi hloc⟩

/-- Distinct roots belong to distinct positions. -/
theorem position_injOn : Set.InjOn (fun r => cw.length - 1 - locatorLog F r) {r | r ∈ pzeros F sigma} := by
  intro r hr q hq h
  obtain ⟨-, -, hrv⟩ := R.position_of_root M hs hsv hr
  obtain ⟨-, -, hqv⟩ := R.position_of_root M hs hsv hq
  have h' : cw.length - 1 - locatorLog F r = cw.length - 1 - locatorLog F q := h
  rw [h', hqv] at hrv
  exact M.inj ((mem_pzeros M).1 hr).2.1 ((mem_pzeros M).1 hq).2.1 (inv_injective hrv.symm)

/-- There are as many roots as errors. -/
theorem length_pzeros : (pzeros F sigma).length = I.card := by
  rw [← List.toFinset_card_of_nodup (nodup_pzeros M sigma)]
  refine Finset.card_nbij (fun r => cw.length - 1 - locatorLog F r) (fun r hr => ?_) ?_ fun i hi => ?_
  · exact (R.position_of_root M hs hsv (List.mem_toFinset.1 hr)).1
  · rw [List.coe_toFinset]
    exact R.position_injOn M hs hsv
  · obtain ⟨r, hr, hri⟩ := R.exists_root M hs hsv hi
    exact ⟨r, by simpa using hr, hri⟩

/-- A root's denominator, as a product over the other error positions (44_rs_decoder.md R274). -/
theorem val_forneyDenom {k : Nat} (hk : k < (pzeros F sigma).length) :
    val (forneyDenom F (pzeros F sigma) k (pzeros F sigma)[k]) =
      ∏ j ∈ I.erase (cw.length - 1 - locatorLog F (pzeros F sigma)[k]),
        (1 - locatorAt val F cw.length j * val (pzeros F sigma)[k]) := by
  have hnd := nodup_pzeros M sigma
  have hroots : ∀ x ∈ pzeros F sigma, x ≠ 0 ∧ IsElem F x := fun x hx =>
    ⟨((mem_pzeros M).1 hx).1, ((mem_pzeros M).1 hx).2.1⟩
  have hmem {r : Elem} : r ∈ (pzeros F sigma).eraseIdx k ↔ r ≠ (pzeros F sigma)[k] ∧ r ∈ pzeros F sigma := by
    rw [← hnd.erase_getElem k hk, hnd.mem_erase_iff]
  have hinj := R.position_injOn M hs hsv
  rw [(forneyDenom_ok M hnd hroots hk).2.1, ← List.prod_toFinset _ (hnd.eraseIdx k)]
  refine Finset.prod_nbij (fun r => cw.length - 1 - locatorLog F r) (fun r hr => ?_) (fun r hr q hq h => ?_) (fun i hi => ?_)
    fun r hr => ?_
  · obtain ⟨hne, hr'⟩ := hmem.1 (List.mem_toFinset.1 hr)
    exact Finset.mem_erase.2 ⟨fun h => hne (hinj hr' (List.getElem_mem hk) h), (R.position_of_root M hs hsv hr').1⟩
  · rw [List.coe_toFinset] at hr hq
    exact hinj (hmem.1 hr).2 (hmem.1 hq).2 h
  · obtain ⟨hne, hi'⟩ := Finset.mem_erase.1 hi
    obtain ⟨r, hr, rfl⟩ := R.exists_root M hs hsv hi'
    refine ⟨r, ?_, rfl⟩
    rw [List.coe_toFinset]
    exact hmem.2 ⟨fun h => hne (by rw [h]), hr⟩
  · rw [(R.position_of_root M hs hsv (hmem.1 (List.mem_toFinset.1 hr)).2).2.2]

/-- A root's magnitude is the error at its position (44_rs_decoder.md R274). -/
theorem magnitude_eq {omega : Poly} (ho : PolyOk F omega)
    (hov : polyOf val omega = evaluatorPoly I (locatorAt val F cw.length) (weightAt val F cw w)) {k : Nat}
    (hk : k < (pzeros F sigma).length) : fixMagnitude F omega ((pzeros F sigma).map (ginv F)) k (pzeros F sigma)[k] =
      errorAt cw w (cw.length - 1 - locatorLog F (pzeros F sigma)[k]) := by
  have hroots : ∀ x ∈ pzeros F sigma, x ≠ 0 ∧ IsElem F x := fun x hx =>
    ⟨((mem_pzeros M).1 hx).1, ((mem_pzeros M).1 hx).2.1⟩
  have hk' := List.getElem_mem hk
  obtain ⟨hm, hmv⟩ := fixMagnitude_ok M ho (nodup_pzeros M sigma) hroots hk
  obtain ⟨hd, -, hd0⟩ := forneyDenom_ok M (nodup_pzeros M sigma) hroots hk
  obtain ⟨hi, -, hloc⟩ := R.position_of_root M hs hsv hk'
  have hden := R.val_forneyDenom M hs hsv hk
  have hr0 : val (pzeros F sigma)[k] ≠ 0 := fun h => (hroots _ hk').1 ((M.val_eq_zero_iff (hroots _ hk').2).1 h)
  have hne : val (forneyDenom F (pzeros F sigma) k (pzeros F sigma)[k]) ≠ 0 := fun h => hd0 ((M.val_eq_zero_iff hd).1 h)
  have heval := eval_evaluatorPoly (y := weightAt val F cw w) (fun i _ => locatorAt_ne_zero M cw.length i) hi
  rw [hloc, inv_inv, ← hden] at heval
  refine M.inj hm (R.elem_errorAt M _) (mul_right_cancel₀ hne ?_)
  rw [hmv, hov, heval, weightAt, hloc, inv_pow]
  field_simp

/-- The correction loop restores the codeword and counts the errors (44_rs_decoder.md R270 to R274). -/
theorem fixWord_eq {omega : Poly} (ho : PolyOk F omega)
    (hov : polyOf val omega = evaluatorPoly I (locatorAt val F cw.length) (weightAt val F cw w)) :
    fixWord F omega (pzeros F sigma) w = (cw, I.card) := by
  have hlen := R.length_eq
  have hroots : ∀ x ∈ pzeros F sigma, x ≠ 0 ∧ IsElem F x := fun x hx =>
    ⟨((mem_pzeros M).1 hx).1, ((mem_pzeros M).1 hx).2.1⟩
  have hnd := nodup_locatorLog M (nodup_pzeros M sigma) hroots
  refine Prod.ext (List.ext_getElem? fun pos => ?_) ?_
  · rw [fixWord]
    by_cases hpos : pos ∈ I
    · obtain ⟨r, hr, hri⟩ := R.exists_root M hs hsv hpos
      obtain ⟨k, hk, rfl⟩ := List.getElem_of_mem hr
      obtain ⟨-, hlt, -⟩ := R.position_of_root M hs hsv hr
      have hfix := fixLoop_of_located F omega ((pzeros F sigma).map (ginv F)) 0 (pzeros F sigma) w 0 hnd hk (by rwa [hlen])
      have hc := R.lt_of_mem hpos
      rw [Nat.zero_add, R.magnitude_eq M hs hsv ho hov hk, hlen, hri] at hfix
      rw [hfix, errorAt, List.getElem?_eq_getElem (by omega), List.getElem?_eq_getElem hc, Option.getD_some, Option.getD_some,
        Option.map_some, ← BitVec.xor_assoc, BitVec.xor_self, BitVec.zero_xor]
    · rw [fixLoop_of_not_located]
      · exact not_not.1 fun h => hpos ((R.mem_iff pos).2 h)
      · intro r hr _ he
        rw [hlen] at he
        exact hpos (he ▸ (R.position_of_root M hs hsv hr).1)
  · rw [fixWord, fixLoop_count, Nat.zero_add, List.filter_eq_self.2, R.length_pzeros M hs hsv]
    intro r hr
    rw [hlen]
    exact decide_eq_true (R.position_of_root M hs hsv hr).2.1

end

end Received

end

end

end Sys2Proof.Machine
end

section
/-! PROOF. RSENC followed by RSDEC (43_rs_encoder.md R235, 44_rs_decoder.md R284). -/

namespace Sys2Proof.Machine

/-! ### Words and elements -/

/-- The words of a block that are below the field size are elements, zero-extended (20_memory.md R83). -/
theorem setWidth_elem_of_lt {F : FieldCfg} {K : Type} [Field K] {val : Elem → K} (M : FieldModel F val) {v : Half}
    (h : v.toNat < F.size.toNat) : (v.setWidth 12).setWidth 16 = v := by
  obtain ⟨size, gen, base, hF⟩ := M.build
  have hsize := (legalField_of_build hF).size_mem.2
  rw [size_of_build hF] at h
  apply BitVec.eq_of_toNat_eq
  rw [BitVec.toNat_setWidth, BitVec.toNat_setWidth, Nat.mod_eq_of_lt (b := 2 ^ 12) (by omega), Nat.mod_eq_of_lt v.isLt]

/-- A word of a block as an element (20_memory.md R83). -/
theorem getElem?_blockElems (s : State) {a n i : Nat} (h : i < n) :
    (blockElems s a n)[i]? = some ((Memory.read s.dmem (a + i)).setWidth 12) := by
  rw [blockElems, List.getElem?_map, List.getElem?_eq_getElem (by simpa using h), Memory.readBlock_getElem]
  rfl

/-- A block that holds a sequence of elements is readable (20_memory.md R83). -/
theorem readBlock_lt_of_elems {s : State} {a n : Nat} {p : List Elem} (hp : AllElem s.field p) (hlen : p.length = n)
    (h : ∀ i, (hi : i < p.length) → Memory.read s.dmem (a + i) = (p[i]).setWidth 16) :
    ∀ v ∈ Memory.readBlock s.dmem a n, v.toNat < s.field.size.toNat := by
  intro v hv
  obtain ⟨i, hi, rfl⟩ := List.getElem_of_mem hv
  rw [Memory.length_readBlock, ← hlen] at hi
  rw [Memory.readBlock_getElem, h i hi, BitVec.toNat_setWidth]
  exact (Nat.mod_le _ _).trans_lt (hp _ (List.getElem_mem hi))

/-! ### RSENC -/

/-- An RSENC with the generator of RSGEN that retires stores a word that is 0 at the P powers of alpha from FBASE on
(43_rs_encoder.md R233, R234). -/
theorem codeword_of_rsenc {s t : State} {qg : QReg} {rmsg rl rdst : SReg} {P : Nat} (hok : FieldOk s.field)
    (hv : s.field.valid = true) (hg : s.qreg qg = genPoly s.field P) (hexec : exec (.rsenc qg rmsg rl rdst) s = .next t)
    (hret : t.faulted = false) : ∃ (m : Memory) (cw : List Elem), t = retire (s.setMem m) ∧ AllElem s.field cw ∧
      cw.length = (s.sreg rl).toNat + P ∧ blockInRange s (s.sreg rdst).toNat cw.length ∧
      (∀ i, (hi : i < cw.length) → Memory.read m ((s.sreg rdst).toNat + i) = (cw[i]).setWidth 16) ∧
      ∀ i < P, peval s.field cw (alphaPow s.field (s.field.base.toNat + i)) = 0 := by
  obtain ⟨K, _, val, M⟩ := exists_fieldModel hok hv
  obtain ⟨hgok, -⟩ := genPoly_ok M P
  obtain ⟨hlead, hdeg⟩ := monic_genPoly M P
  obtain ⟨hc, he⟩ | ⟨c, -, he⟩ := exec_cases (.rsenc qg rmsg rl rdst) s <;> cases he.symm.trans hexec
  · simp only [checksOf, fieldCheck, blockCheck, wordsCheck, firstFailing_none_iff, List.forall_mem_cons, List.not_mem_nil,
      false_imp_iff, implies_true, and_true] at hc
    obtain ⟨-, -, hm, hd, hw⟩ := hc
    have hmsg := ReadableElems.allElem ⟨hm, hw⟩
    obtain ⟨hpar, hdvd⟩ := parity_ok M hgok hlead hmsg
    rw [hg, hdeg] at hd
    have hlen : (blockElems s (s.sreg rmsg).toNat (s.sreg rl).toNat ++ parity s.field (genPoly s.field P)
        (blockElems s (s.sreg rmsg).toNat (s.sreg rl).toNat)).length = (s.sreg rl).toNat + P := by
      rw [List.length_append, length_blockElems, length_parity, hdeg]
    refine ⟨_, _, rfl, hmsg.append hpar, hlen, by rwa [hlen], ?_, fun i hi => ?_⟩
    · rw [hg]
      exact read_elemHalves _ _ _
    · have h0 := peval_genPoly M hi
      rw [peval_eq_zero_iff M hgok.allElem (M.elem_alphaPow _)] at h0
      rw [peval_eq_zero_iff M (hmsg.append hpar) (M.elem_alphaPow _)]
      exact Polynomial.eval_eq_zero_of_dvd_of_eval_eq_zero hdvd h0
  · cases hret

/-! ### RSDEC -/

section
variable {s : State} {rd raddr rn rp : SReg} (hv : s.field.valid = true) (hP : (s.sreg rp).toNat ≤ s.field.size.toNat - 1)
  (hread : ReadableElems s (s.sreg raddr).toNat (s.sreg rn).toNat)
include hv hP hread

/-- RSDEC of a word with all syndromes zero (44_rs_decoder.md R283). -/
theorem exec_rsdec_of_allZero
    (h : allZero (syndromes s.field (blockElems s (s.sreg raddr).toNat (s.sreg rn).toNat) (s.sreg rp).toNat) = true) :
    exec (.rsdec rd raddr rn rp) s = .next (retire ((((s.setSynz true).setDstat .noErrors).setDnfix 0).setS rd 1)) := by
  rw [exec_of_checks (i := .rsdec rd raddr rn rp) (.inl ⟨hv, .inl ⟨hP, .inl ⟨hread.1, .inl ⟨hread.2, rfl⟩⟩⟩⟩)]
  simp only [result, if_pos h]

/-- RSDEC of a word with a nonzero syndrome that the solver solves (44_rs_decoder.md R283). -/
theorem exec_rsdec_of_euclid {sigma omega : Poly} {fixed : List Elem × Nat}
    (h : ¬ allZero (syndromes s.field (blockElems s (s.sreg raddr).toNat (s.sreg rn).toNat) (s.sreg rp).toNat) = true)
    (he : euclid s.field (s.sreg rp).toNat (syndromePoly (syndromes s.field
      (blockElems s (s.sreg raddr).toNat (s.sreg rn).toNat) (s.sreg rp).toNat)) = some (sigma, omega))
    (hf : fixWord s.field omega (pzeros s.field sigma) (blockElems s (s.sreg raddr).toNat (s.sreg rn).toNat) = fixed) :
    exec (.rsdec rd raddr rn rp) s = .next (retire (((((s.setMem (Memory.writeBlock s.dmem (s.sreg raddr).toNat
      (elemHalves fixed.1))).setSynz false).setDstat .corrected).setDnfix fixed.2).setS rd 1)) := by
  rw [exec_of_checks (i := .rsdec rd raddr rn rp) (.inl ⟨hv, .inl ⟨hP, .inl ⟨hread.1, .inl ⟨hread.2, rfl⟩⟩⟩⟩)]
  simp only [result, if_neg h, he, Option.elim_some, hf]
  rfl

end

/-- Settles O32: the codeword is 0 at every power a syndrome is taken at. -/
theorem encodedWordDecodes : Obligations.EncodedWordDecodes := by
  intro s t qg rmsg rl rdst rn rp rd hok hv hP hg hn hlt hs hexec ht
  obtain ⟨m, cw, rfl, hcw, hlen, hb, hreadm, hzero⟩ := codeword_of_rsenc hok hv hg hexec ht
  have hrn : (s.sreg rn).toNat = cw.length := by rw [hn, BitVec.toNat_ofNat, Nat.mod_eq_of_lt hlt, hlen]
  have hblock : blockElems (retire (s.setMem m)) (s.sreg rdst).toNat (s.sreg rn).toNat = cw := by
    rw [hrn]
    exact blockElems_of_read hreadm
  have hread : ReadableElems (retire (s.setMem m)) (s.sreg rdst).toNat (s.sreg rn).toNat := by
    rw [hrn]
    exact ⟨hb, readBlock_lt_of_elems hcw rfl hreadm⟩
  have hall : allZero (syndromes s.field (blockElems (retire (s.setMem m)) (s.sreg rdst).toNat (s.sreg rn).toNat)
      (s.sreg rp).toNat) = true := by
    rw [hblock, allZero_syndromes_iff]
    exact hzero
  refine ⟨_, exec_rsdec_of_allZero (s := retire (s.setMem m)) hv hP hread hall, ?_⟩
  generalize retire (s.setMem m) = u at *
  simp [ht]

/-- The words of a block against those of a stored codeword: a received word whose errors are the words that differ. -/
theorem received_of_read {u : State} {K : Type} [Field K] {val : Elem → K} (M : FieldModel u.field val) {a P : Nat}
    {cw : List Elem} {mem : Memory} (hcw : AllElem u.field cw) (hle : cw.length ≤ u.field.order)
    (hzero : ∀ i < P, peval u.field cw (alphaPow u.field (u.field.base.toNat + i)) = 0)
    (hmem : ∀ i, (hi : i < cw.length) → Memory.read mem (a + i) = (cw[i]).setWidth 16)
    (hread : ReadableElems u a cw.length) : Received u.field P cw (blockElems u a cw.length)
      ((List.range cw.length).filter (fun i => decide (Memory.read u.dmem (a + i) ≠ Memory.read mem (a + i)))).toFinset := by
  refine ⟨hcw, hread.allElem, length_blockElems _ _ _, hle, hzero, fun i => ?_⟩
  rw [List.mem_toFinset, List.mem_filter, List.mem_range, decide_eq_true_eq]
  by_cases hi : i < cw.length
  · have hlt := hread.2 _ (List.getElem_mem (n := i) (by simpa using hi))
    rw [Memory.readBlock_getElem] at hlt
    rw [and_iff_right hi, getElem?_blockElems _ hi, List.getElem?_eq_getElem hi, (Option.some_injective _).ne_iff, hmem i hi,
      not_iff_not]
    constructor <;> intro h
    · rw [h, setWidth_setWidth_elem]
    · rw [← h, setWidth_elem_of_lt M hlt]
  · rw [List.getElem?_eq_none (by simpa using hi), List.getElem?_eq_none (by omega)]
    simp [hi]

/-- Settles O33: the received word is the codeword with an error pattern of at most P/2 positions, which the solver finds and the
correction loop undoes. -/
theorem roundTrip : Obligations.RoundTrip := by
  intro s t qg rmsg rl rdst rn rp rd a n P m errors hok hv hPeq hP hn hnle hrn ha hg hs hexec ht hwords herrors hfew
  obtain ⟨K, _, val, M⟩ := exists_fieldModel hok hv
  obtain ⟨mem, cw, rfl, hcw, hlen, hb, hmem, hzero⟩ := codeword_of_rsenc hok hv hg hexec ht
  rw [← hn] at hlen
  subst ha hPeq hlen
  have hPle : (s.sreg rp).toNat ≤ s.field.size.toNat - 1 := by omega
  have hread : ReadableElems ((retire (s.setMem mem)).setMem m) (s.sreg rdst).toNat cw.length := ⟨hb, hwords⟩
  have hrec : Received s.field (s.sreg rp).toNat cw
      (blockElems ((retire (s.setMem mem)).setMem m) (s.sreg rdst).toNat cw.length) errors.toFinset :=
    herrors ▸ received_of_read (u := (retire (s.setMem mem)).setMem m) M hcw hnle hzero hmem hread
  have hcard : errors.toFinset.card = errors.length := List.toFinset_card_of_nodup (herrors ▸ List.nodup_range.filter _)
  rw [← hrn] at hread hrec
  by_cases hnone : errors = []
  · have hsame (i : Nat) : ¬ i ∈ errors.toFinset := by simp [hnone]
    have hblock : blockElems ((retire (s.setMem mem)).setMem m) (s.sreg rdst).toNat (s.sreg rn).toNat = cw :=
      List.ext_getElem? fun i => not_not.1 fun h => hsame i ((hrec.mem_iff i).2 h)
    refine ⟨m, ?_, fun i hi => not_not.1 fun h => hsame i ?_, fun _ _ => rfl⟩
    · rw [exec_rsdec_of_allZero (s := (retire (s.setMem mem)).setMem m) (rn := rn) hv hPle hread
        (hblock ▸ (allZero_syndromes_iff _ _ _).2 hzero), hnone]
      rfl
    · rw [List.mem_toFinset, herrors]
      exact List.mem_filter.2 ⟨List.mem_range.2 hi, decide_eq_true h⟩
  · obtain ⟨sigma, omega, he, hsig, homg, hsv, hov⟩ := hrec.euclid_eq M (by simpa using hnone) (by omega)
    have hfix := hrec.fixWord_eq M hsig hsv homg hov
    refine ⟨Memory.writeBlock m (s.sreg rdst).toNat (elemHalves cw), ?_, fun i hi => ?_, fun b hb => ?_⟩
    · rw [exec_rsdec_of_euclid (s := (retire (s.setMem mem)).setMem m) hv hPle hread
        (hrec.not_allZero M (by simpa using hnone) (by omega)) he hfix, if_neg hnone, decide_eq_false hnone, hcard]
      rfl
    · rw [read_elemHalves _ _ _ _ hi]
      exact (hmem i hi).symm
    · exact Memory.read_writeBlock_outside _ _ _ _ (by rwa [elemHalves_length])

end Sys2Proof.Machine
end

section
/-! PROOF. The dynamic program of the mode encoder (46_mode_encoder.md R340 to R356): what a relaxation does to a bank, the banks
of a text from those of its prefixes, and what every filled slot holds. -/

namespace Sys2Proof.Machine

/-! ### Modes and slots -/

theorem Mode.index_injective : Function.Injective Mode.index := by
  intro m n
  rcases m with (_ | _ | _ | _ | _) | _ <;> rcases n with (_ | _ | _ | _ | _) | _ <;> decide

theorem CharMode.mem_all (m : CharMode) : m ∈ CharMode.all := by
  cases m <;> decide

theorem Mode.mem_all (m : Mode) : m ∈ Mode.all := by
  rcases m with m | _
  · cases m <;> decide
  · decide

@[simp] theorem bankGet_emptyBank (m : Mode) : bankGet emptyBank m = none := by
  simp [bankGet, emptyBank, Vector.get]

/-- A slot of a bank after another was written. -/
theorem bankGet_set (b : Bank) (m n : Mode) (sl : Option Slot) :
    bankGet (b.set m.index sl) n = if n = m then sl else bankGet b n := by
  have hget (b : Bank) : bankGet b n = b[n.index.val] := rfl
  rw [hget, hget, Vector.getElem_set]
  simp only [← Fin.ext_iff, Mode.index_injective.eq_iff, eq_comm]

/-! ### Relaxation -/

/-- Slot `m` of the bank is filled at a cost no higher than that of `bits` (46_mode_encoder.md R343). -/
def FilledWithin (w : BitVec 5) (b : Bank) (m : Mode) (bits : List Bool) : Prop :=
  ∃ sl, bankGet b m = some sl ∧ sl.cost ≤ stuffedCost w bits

/-- The slot a candidate becomes (46_mode_encoder.md R343). -/
def Candidate.slot (w : BitVec 5) (c : Candidate) : Slot :=
  ⟨c.bits, stuffedCost w c.bits, c.binRun⟩

/-- RELAX writes the candidate's slot, where it was empty or cost more, or keeps it (46_mode_encoder.md R343). -/
theorem relax_cases (w : BitVec 5) (b : Bank) (c : Candidate) :
    (relax w b c = b.set c.mode.index (some (c.slot w)) ∧
      ∀ old, bankGet b c.mode = some old → stuffedCost w c.bits ≤ old.cost) ∨
    (relax w b c = b ∧ ∃ old, bankGet b c.mode = some old ∧ old.cost ≤ stuffedCost w c.bits) := by
  rw [relax]
  cases h : bankGet b c.mode with
  | none => exact .inl ⟨rfl, nofun⟩
  | some old =>
    dsimp only
    split
    next hlt => exact .inl ⟨rfl, fun o ho => Option.some.inj ho ▸ hlt.le⟩
    next hge => exact .inr ⟨rfl, old, rfl, Nat.not_lt.1 hge⟩

/-- RELAX fills the candidate's slot at no more than its cost. -/
theorem filledWithin_relax (w : BitVec 5) (b : Bank) (c : Candidate) : FilledWithin w (relax w b c) c.mode c.bits := by
  obtain ⟨h, -⟩ | ⟨h, old, ho, hle⟩ := relax_cases w b c <;> rw [h]
  · exact ⟨c.slot w, by rw [bankGet_set, if_pos rfl], le_rfl⟩
  · exact ⟨old, ho, hle⟩

/-- RELAX keeps every slot filled at no higher cost. -/
theorem FilledWithin.relax {w : BitVec 5} {b : Bank} {m : Mode} {bits : List Bool} (h : FilledWithin w b m bits) (c : Candidate) :
    FilledWithin w (relax w b c) m bits := by
  obtain ⟨sl, hsl, hle⟩ := h
  obtain ⟨h, hold⟩ | ⟨h, -⟩ := relax_cases w b c <;> rw [h]
  · by_cases hm : m = c.mode
    · exact ⟨c.slot w, by rw [bankGet_set, if_pos hm], (hold sl (hm ▸ hsl)).trans hle⟩
    · exact ⟨sl, by rw [bankGet_set, if_neg hm, hsl], hle⟩
  · exact ⟨sl, hsl, hle⟩

/-- A slot after RELAX was there before or is the candidate's. -/
theorem bankGet_relax {w : BitVec 5} {b : Bank} {c : Candidate} {m : Mode} {sl : Slot} (h : bankGet (relax w b c) m = some sl) :
    bankGet b m = some sl ∨ m = c.mode ∧ sl = c.slot w := by
  obtain ⟨he, -⟩ | ⟨he, -⟩ := relax_cases w b c <;> rw [he] at h
  · rw [bankGet_set] at h
    split at h
    next hm => exact .inr ⟨hm, (Option.some.inj h).symm⟩
    next => exact .inl h
  · exact .inl h

theorem FilledWithin.foldl_relax {w : BitVec 5} {b : Bank} {m : Mode} {bits : List Bool} (h : FilledWithin w b m bits)
    (cs : List Candidate) : FilledWithin w (cs.foldl (Machine.relax w) b) m bits := by
  induction cs generalizing b with
  | nil => exact h
  | cons c cs ih => exact ih (h.relax c)

/-- Every candidate of a sequence of relaxations fills its slot. -/
theorem filledWithin_foldl_relax {w : BitVec 5} {b : Bank} {cs : List Candidate} {c : Candidate} (hc : c ∈ cs) :
    FilledWithin w (cs.foldl (relax w) b) c.mode c.bits := by
  induction cs generalizing b with
  | nil => cases hc
  | cons d cs ih =>
    rcases List.mem_cons.1 hc with rfl | hc
    · exact (filledWithin_relax w b c).foldl_relax cs
    · exact ih hc

/-- A slot after a sequence of relaxations was there before or is a candidate's. -/
theorem bankGet_foldl_relax {w : BitVec 5} {b : Bank} {cs : List Candidate} {m : Mode} {sl : Slot}
    (h : bankGet (cs.foldl (relax w) b) m = some sl) : bankGet b m = some sl ∨ ∃ c ∈ cs, m = c.mode ∧ sl = c.slot w := by
  induction cs generalizing b with
  | nil => exact .inl h
  | cons c cs ih =>
    rcases ih h with h | ⟨d, hd, hm⟩
    · rcases bankGet_relax h with h | hm
      · exact .inl h
      · exact .inr ⟨c, List.mem_cons_self, hm⟩
    · exact .inr ⟨d, List.mem_cons_of_mem c hd, hm⟩

/-! ### The banks of a text -/

/-- All candidates from the filled slots of a bank (46_mode_encoder.md R344). -/
def bankCandidates (T : AztecTables) (b : Bank) (ch : Nat) (next : Option Nat) : List Candidate :=
  Mode.all.flatMap (fun m => (bankGet b m).elim [] (fun src => candidates T m src ch next))

theorem mem_bankCandidates {T : AztecTables} {b : Bank} {ch : Nat} {next : Option Nat} {c : Candidate} :
    c ∈ bankCandidates T b ch next ↔ ∃ m src, bankGet b m = some src ∧ c ∈ candidates T m src ch next := by
  rw [bankCandidates, List.mem_flatMap]
  constructor
  · rintro ⟨m, -, hc⟩
    cases h : bankGet b m with
    | none =>
      rw [h] at hc
      cases hc
    | some src =>
      rw [h] at hc
      exact ⟨m, src, h, hc⟩
  · rintro ⟨m, src, h, hc⟩
    exact ⟨m, m.mem_all, by rwa [h]⟩

/-- A relaxation goes to one of two banks, by the number of characters it consumes (46_mode_encoder.md R343, R349). -/
theorem foldl_relaxInto (w : BitVec 5) (bs : Bank × Bank) (cs : List Candidate) : cs.foldl (relaxInto w) bs =
    ((cs.filter (fun c => !c.two)).foldl (relax w) bs.1, (cs.filter (fun c => c.two)).foldl (relax w) bs.2) := by
  induction cs generalizing bs with
  | nil => rfl
  | cons c cs ih =>
    rw [List.foldl_cons, ih, relaxInto]
    cases h : c.two <;> simp [h]

/-- The relaxations of a position are those of its candidates, in order (46_mode_encoder.md R344). -/
theorem relaxPosition_eq (T : AztecTables) (w : BitVec 5) (b0 : Bank) (bs : Bank × Bank) (ch : Nat) (next : Option Nat) :
    relaxPosition T w b0 bs ch next =
      (((bankCandidates T b0 ch next).filter (fun c => !c.two)).foldl (relax w) bs.1,
        ((bankCandidates T b0 ch next).filter (fun c => c.two)).foldl (relax w) bs.2) := by
  rw [← foldl_relaxInto, bankCandidates, List.foldl_flatMap, relaxPosition]
  congr 1
  funext bs m
  cases bankGet b0 m <;> rfl

/-- The banks best[k] and best[k+1] so far after the positions of a text, given last position first, with the character after
it (46_mode_encoder.md R344). -/
def banksAfter (T : AztecTables) (w : BitVec 5) : List Nat → Option Nat → Bank × Bank
  | [], _ => (initialBank, emptyBank)
  | ch :: rest, next =>
    relaxPosition T w (banksAfter T w rest (some ch)).1 ((banksAfter T w rest (some ch)).2, emptyBank) ch next

/-- The program goes on from the banks of the positions behind it. -/
theorem finalBank_eq_runDp (T : AztecTables) (w : BitVec 5) (r u : List Nat) :
    finalBank T w (r.reverse ++ u) = runDp T w u (banksAfter T w r u.head?).1 (banksAfter T w r u.head?).2 := by
  induction r generalizing u with
  | nil => rfl
  | cons ch rest ih =>
    rw [List.reverse_cons, List.append_assoc, List.singleton_append, ih]
    rfl

/-- The candidates that consume one character do not depend on the next (46_mode_encoder.md R345 to R348). -/
theorem filter_one_candidates (T : AztecTables) (m : Mode) (src : Slot) (ch : Nat) (next : Option Nat) :
    (candidates T m src ch next).filter (fun c => !c.two) = (candidates T m src ch none).filter (fun c => !c.two) := by
  have hpair (A : CharMode) (bits : List Bool) (next : Option Nat) :
      (edgePair T A bits ch next).filter (fun c => !c.two) = [] := by
    rw [edgePair]
    cases next.bind (aztecPair T ch) with
    | none => rfl
    | some pc => cases aztecShift T A .punct <;> rfl
  simp only [candidates, List.filter_append, hpair]

theorem filter_one_bankCandidates (T : AztecTables) (b : Bank) (ch : Nat) (next : Option Nat) :
    (bankCandidates T b ch next).filter (fun c => !c.two) = (bankCandidates T b ch none).filter (fun c => !c.two) := by
  simp only [bankCandidates, List.filter_flatMap]
  congr 1
  funext m
  cases bankGet b m with
  | none => rfl
  | some src => exact filter_one_candidates T m src ch next

/-- best[k] does not depend on the character after the first k (46_mode_encoder.md R344). -/
theorem banksAfter_fst (T : AztecTables) (w : BitVec 5) (r : List Nat) (next : Option Nat) :
    (banksAfter T w r next).1 = finalBank T w r.reverse := by
  have hnone : finalBank T w r.reverse = (banksAfter T w r none).1 := by
    have h := finalBank_eq_runDp T w r []
    rwa [List.append_nil] at h
  rw [hnone]
  cases r with
  | nil => rfl
  | cons ch rest =>
    simp only [banksAfter, relaxPosition_eq]
    rw [filter_one_bankCandidates T _ ch next]

/-- best[k+1] so far, before position k: what pairs that end at k left (46_mode_encoder.md R349). -/
def pairBank (T : AztecTables) (w : BitVec 5) (t : List Nat) (ch : Nat) : Bank :=
  (banksAfter T w t.reverse (some ch)).2

/-- best[k+1] from best[k] (46_mode_encoder.md R344). -/
theorem finalBank_concat (T : AztecTables) (w : BitVec 5) (t : List Nat) (ch : Nat) : finalBank T w (t ++ [ch]) =
    ((bankCandidates T (finalBank T w t) ch none).filter (fun c => !c.two)).foldl (relax w) (pairBank T w t ch) := by
  have h := banksAfter_fst T w (ch :: t.reverse) none
  rw [List.reverse_cons, List.reverse_reverse] at h
  rw [← h, banksAfter, relaxPosition_eq, banksAfter_fst, List.reverse_reverse]
  rfl

theorem pairBank_nil (T : AztecTables) (w : BitVec 5) (ch : Nat) : pairBank T w [] ch = emptyBank := rfl

/-- The pairs that end at a position start at the one before (46_mode_encoder.md R349). -/
theorem pairBank_concat (T : AztecTables) (w : BitVec 5) (t : List Nat) (c1 c2 : Nat) : pairBank T w (t ++ [c1]) c2 =
    ((bankCandidates T (finalBank T w t) c1 (some c2)).filter (fun c => c.two)).foldl (relax w) emptyBank := by
  rw [pairBank, List.reverse_append, List.reverse_singleton, List.singleton_append, banksAfter, relaxPosition_eq, banksAfter_fst,
    List.reverse_reverse]

section
variable {T : AztecTables} {w : BitVec 5} {t : List Nat} {m : Mode} {sl : Slot}

/-- A candidate that consumes one character is relaxed (46_mode_encoder.md R343). -/
theorem slotWithin_of_one (h : bankGet (finalBank T w t) m = some sl) {ch : Nat} {c : Candidate}
    (hc : c ∈ candidates T m sl ch none) (hone : c.two = false) : SlotWithin T w (t ++ [ch]) c.mode c.bits := by
  rw [SlotWithin, finalBank_concat]
  exact filledWithin_foldl_relax (List.mem_filter.2 ⟨mem_bankCandidates.2 ⟨m, sl, h, hc⟩, by simp [hone]⟩)

/-- A candidate that consumes two characters is relaxed (46_mode_encoder.md R349). -/
theorem slotWithin_of_two (h : bankGet (finalBank T w t) m = some sl) {c1 c2 : Nat} {c : Candidate}
    (hc : c ∈ candidates T m sl c1 (some c2)) (htwo : c.two = true) : SlotWithin T w (t ++ [c1, c2]) c.mode c.bits := by
  rw [SlotWithin, show t ++ [c1, c2] = t ++ [c1] ++ [c2] by simp, finalBank_concat, pairBank_concat]
  refine FilledWithin.foldl_relax ?_ _
  exact filledWithin_foldl_relax (List.mem_filter.2 ⟨mem_bankCandidates.2 ⟨m, sl, h, hc⟩, htwo⟩)

/-- A property of the slots of a text that holds at the start and of every candidate from a slot that has it holds of every
filled slot. -/
theorem finalBank_induction {Q : List Nat → Mode → Slot → Prop} (hstart : Q [] (.chr .upper) initialSlot)
    (hone : ∀ t m sl ch c, Q t m sl → c ∈ candidates T m sl ch none → c.two = false → Q (t ++ [ch]) c.mode (c.slot w))
    (htwo : ∀ t m sl c1 c2 c, Q t m sl → c ∈ candidates T m sl c1 (some c2) → c.two = true →
      Q (t ++ [c1, c2]) c.mode (c.slot w)) :
    ∀ m sl, bankGet (finalBank T w t) m = some sl → Q t m sl := by
  have hall : (∀ m sl, bankGet (finalBank T w t) m = some sl → Q t m sl) ∧
      ∀ ch m sl, bankGet (pairBank T w t ch) m = some sl → Q (t ++ [ch]) m sl := by
    induction t using List.reverseRecOn with
    | nil =>
      refine ⟨fun m sl h => ?_, fun ch m sl h => ?_⟩
      · rw [show finalBank T w [] = initialBank from rfl, initialBank, bankGet_set] at h
        split at h
        next hm =>
          cases h
          exact hm ▸ hstart
        next => simp at h
      · rw [pairBank_nil, bankGet_emptyBank] at h
        cases h
    | append_singleton t c1 ih =>
      obtain ⟨ihf, ihp⟩ := ih
      refine ⟨fun m sl h => ?_, fun c2 m sl h => ?_⟩
      · rw [finalBank_concat] at h
        rcases bankGet_foldl_relax h with h | ⟨c, hc, rfl, rfl⟩
        · exact ihp c1 m sl h
        · obtain ⟨hmem, h1⟩ := List.mem_filter.1 hc
          obtain ⟨m, src, hsrc, hc⟩ := mem_bankCandidates.1 hmem
          exact hone t m src c1 c (ihf m src hsrc) hc (by simpa using h1)
      · rw [pairBank_concat] at h
        rcases bankGet_foldl_relax h with h | ⟨c, hc, rfl, rfl⟩
        · rw [bankGet_emptyBank] at h
          cases h
        · obtain ⟨hmem, h2⟩ := List.mem_filter.1 hc
          obtain ⟨m, src, hsrc, hc⟩ := mem_bankCandidates.1 hmem
          rw [List.append_assoc]
          exact htwo t m src c1 c2 c (ihf m src hsrc) hc h2
  exact hall.1

end

end Sys2Proof.Machine
end

section
/-! PROOF. What the slots of the mode encoder hold (46_mode_encoder.md R340 to R356): each edge builds an encoding, and the final
selection takes the cheapest slot. -/

namespace Sys2Proof.Machine

/-! ### Bits of codes and of the length field -/

theorem codeBits_eq_emitted (cs : List Code) : codeBits cs = emitted cs := by
  simp only [codeBits, emitted, natBits_eq_msbFirst, List.flatMap_def]

theorem emitted_append (cs ds : List Code) : emitted (cs ++ ds) = emitted cs ++ emitted ds := by
  simp [emitted]

theorem lengthField_eq_runLength (n : Nat) : lengthField n = runLength n := by
  simp only [lengthField, runLength, natBits_eq_msbFirst]

/-- The bits before the length field of a binary run that starts in mode `A` and returns to mode `r` (46_mode_encoder.md R332,
R348). -/
def runStart (T : AztecTables) (A r : CharMode) (bits : List Bool) : List Bool :=
  bits ++ emitted (aztecLatch T A r) ++ emitted [T.bsCode]

/-- Rewriting the length field of a run leaves the bits around it (46_mode_encoder.md R345). -/
theorem rewriteLength_eq {pre data : List Bool} {r : BinRun} (h : pre.length = r.lenpos) :
    rewriteLength (pre ++ runLength r.run ++ data) r = pre ++ runLength (r.run + 1) ++ data := by
  have htake : (pre ++ runLength r.run ++ data).take pre.length = pre := by rw [List.append_assoc, List.take_left]
  rw [rewriteLength, lengthField_eq_runLength, lengthField_eq_runLength, ← h, htake, ← List.length_append, List.drop_left]

/-! ### The edges -/

section
variable {T : AztecTables} {A : CharMode} {bits : List Bool} {ch : Nat} {c : Candidate}

theorem mem_edgeContinue {src : Slot} : c ∈ edgeContinue src ch ↔ ∃ r, src.binRun = some r ∧ r.run < 2078 ∧
    c = ⟨false, .bin, rewriteLength src.bits r ++ msbFirst 8 ch, some { r with run := r.run + 1 }⟩ := by
  rw [edgeContinue]
  cases src.binRun with
  | none => simp
  | some r =>
    have hmax : Config.binMax = 2078 := rfl
    by_cases h : r.run < 2078 <;> simp [h, hmax, natBits_eq_msbFirst]

theorem mem_edgeLatch : c ∈ edgeLatch T A bits ch ↔ ∃ b cd, aztecChar T b ch = some cd ∧
    c = ⟨false, .chr b, bits ++ emitted (aztecLatch T A b) ++ emitted [cd], none⟩ := by
  simp only [edgeLatch, List.mem_filterMap, Option.map_eq_some_iff, codeBits_eq_emitted, emitted_append, List.append_assoc,
    CharMode.mem_all, true_and, eq_comm (a := c)]

theorem mem_edgeShift : c ∈ edgeShift T A bits ch ↔ ∃ x sh cd, aztecShift T A x = some sh ∧ aztecChar T x ch = some cd ∧
    c = ⟨false, .chr A, bits ++ emitted [sh, cd], none⟩ := by
  simp only [edgeShift, List.mem_filterMap, CharMode.mem_all, true_and, codeBits_eq_emitted]
  refine exists_congr fun x => ?_
  cases aztecShift T A x <;> cases aztecChar T x ch <;> simp [eq_comm]

theorem mem_edgeBinary : c ∈ edgeBinary T A bits ch ↔ ∃ r ∈ aztecBsFrom T,
    c = ⟨false, .bin, runStart T A r bits ++ runLength 1 ++ msbFirst 8 ch, some ⟨r, 1, (runStart T A r bits).length⟩⟩ := by
  simp only [edgeBinary, List.mem_map, codeBits_eq_emitted, emitted_append, ← List.append_assoc, natBits_eq_msbFirst,
    lengthField_eq_runLength, runStart, eq_comm (a := c)]

theorem mem_edgePair {next : Option Nat} : c ∈ edgePair T A bits ch next ↔
    ∃ c2 pc, next = some c2 ∧ aztecPair T ch c2 = some pc ∧
      (c = ⟨true, .chr .punct, bits ++ emitted (aztecLatch T A .punct) ++ emitted [⟨pc, T.widths.get CharMode.punct.index⟩], none⟩ ∨
        ∃ sh, aztecShift T A .punct = some sh ∧
          c = ⟨true, .chr A, bits ++ emitted [sh, ⟨pc, T.widths.get CharMode.punct.index⟩], none⟩) := by
  rw [edgePair]
  cases next with
  | none => simp
  | some c2 =>
    rw [Option.bind_some]
    cases hpc : aztecPair T ch c2 with
    | none => simp [hpc]
    | some pc => cases aztecShift T A .punct <;> simp [hpc, codeBits_eq_emitted, emitted_append]

/-- The candidates of a slot by its current character mode (46_mode_encoder.md R344). -/
theorem mem_candidates {m : Mode} {sl : Slot} (hA : IsCurrentMode m sl A) {next : Option Nat} :
    c ∈ candidates T m sl ch next ↔ (m = .bin ∧ c ∈ edgeContinue sl ch) ∨ c ∈ edgeLatch T A sl.bits ch ∨
      c ∈ edgeShift T A sl.bits ch ∨ c ∈ edgeBinary T A sl.bits ch ∨ c ∈ edgePair T A sl.bits ch next := by
  rcases hA with rfl | ⟨rfl, r, hr, rfl⟩
  · simp [candidates]
  · simp [candidates, hr]

end

/-! ### What a slot holds -/

/-- `bits` ends in the open binary run `r` of the text `t` (46_mode_encoder.md R332, R340, R348). -/
def RunOk (T : AztecTables) (t : List Nat) (r : BinRun) (bits : List Bool) : Prop :=
  ∃ t0 bytes m0 A0 bits0, t = t0 ++ bytes ∧ bytes.length = r.run ∧ 1 ≤ r.run ∧ r.run ≤ 2078 ∧ Encoding T t0 m0 A0 bits0 ∧
    r.ret ∈ aztecBsFrom T ∧ (runStart T A0 r.ret bits0).length = r.lenpos ∧
    bits = runStart T A0 r.ret bits0 ++ runLength r.run ++ (bytes.map (msbFirst 8)).flatten

/-- Slot `m` of the last bank of the text `t` holds an encoding of it at its stuffed cost (46_mode_encoder.md R340, R342). -/
structure SlotOk (T : AztecTables) (w : BitVec 5) (t : List Nat) (m : Mode) (sl : Slot) : Prop where
  cost : sl.cost = stuffedCost w sl.bits
  chr : ∀ A, m = .chr A → Encoding T t (.chr A) A sl.bits
  bin : m = .bin → ∃ r, sl.binRun = some r ∧ RunOk T t r sl.bits

section
variable {T : AztecTables} {w : BitVec 5} {t : List Nat} {m : Mode} {sl : Slot} {A : CharMode}

theorem RunOk.encoding {r : BinRun} {bits : List Bool} (h : RunOk T t r bits) : Encoding T t .bin r.ret bits := by
  obtain ⟨t0, bytes, m0, A0, bits0, rfl, hlen, h1, h2, henc, hret, -, rfl⟩ := h
  rw [← hlen] at h1 h2 ⊢
  exact henc.binary r.ret hret bytes h1 h2

theorem SlotOk.exists_current (h : SlotOk T w t m sl) : ∃ A, IsCurrentMode m sl A := by
  cases hm : m with
  | chr A => exact ⟨A, .inl rfl⟩
  | bin =>
    obtain ⟨r, hr, -⟩ := h.bin hm
    exact ⟨r.ret, .inr ⟨rfl, r, hr, rfl⟩⟩

/-- A slot holds an encoding that ends in its current mode. -/
theorem SlotOk.encoding (h : SlotOk T w t m sl) (hA : IsCurrentMode m sl A) : Encoding T t m A sl.bits := by
  rcases hA with rfl | ⟨rfl, r, hr, rfl⟩
  · exact h.chr A rfl
  · obtain ⟨r', hr', hrun⟩ := h.bin rfl
    cases hr.symm.trans hr'
    exact hrun.encoding

/-- A candidate for a character slot that extends an encoding. -/
theorem slotOk_chr {t' : List Nat} {B : CharMode} {bits : List Bool} {two : Bool} (h : Encoding T t' (.chr B) B bits) :
    SlotOk T w t' (.chr B) (Candidate.slot w ⟨two, .chr B, bits, none⟩) where
  cost := rfl
  chr A hA := by
    cases hA
    exact h
  bin := nofun

/-- A candidate for slot B that extends a run. -/
theorem slotOk_bin {t' : List Nat} {r : BinRun} {bits : List Bool} {two : Bool} (h : RunOk T t' r bits) :
    SlotOk T w t' .bin (Candidate.slot w ⟨two, .bin, bits, some r⟩) where
  cost := rfl
  chr _ hA := nomatch hA
  bin _ := ⟨r, rfl, h⟩

/-- A run with one byte more (46_mode_encoder.md R345). -/
theorem RunOk.continue {r : BinRun} {bits : List Bool} (h : RunOk T t r bits) (hlt : r.run < 2078) (ch : Nat) :
    RunOk T (t ++ [ch]) { r with run := r.run + 1 } (rewriteLength bits r ++ msbFirst 8 ch) := by
  obtain ⟨t0, bytes, m0, A0, bits0, rfl, hlen, h1, h2, henc, hret, hpos, rfl⟩ := h
  refine ⟨t0, bytes ++ [ch], m0, A0, bits0, List.append_assoc _ _ _, by simp [hlen], by simp, hlt, henc, hret, hpos, ?_⟩
  rw [rewriteLength_eq hpos]
  simp

/-- The candidates of a slot that consume one character hold encodings of the text with that character (46_mode_encoder.md R345
to R348). -/
theorem SlotOk.one (h : SlotOk T w t m sl) {ch : Nat} {c : Candidate} (hc : c ∈ candidates T m sl ch none) :
    SlotOk T w (t ++ [ch]) c.mode (c.slot w) := by
  obtain ⟨A, hA⟩ := h.exists_current
  have henc := h.encoding hA
  rcases (mem_candidates hA).1 hc with ⟨hm, hc⟩ | hc | hc | hc | hc
  · obtain ⟨r, hr, hlt, rfl⟩ := mem_edgeContinue.1 hc
    obtain ⟨r', hr', hrun⟩ := h.bin hm
    cases hr.symm.trans hr'
    exact slotOk_bin (hrun.continue hlt ch)
  · obtain ⟨b, cd, hcd, rfl⟩ := mem_edgeLatch.1 hc
    exact slotOk_chr (henc.latch b ch cd hcd)
  · obtain ⟨x, sh, cd, hsh, hcd, rfl⟩ := mem_edgeShift.1 hc
    exact slotOk_chr (henc.shift x ch sh cd hsh hcd)
  · obtain ⟨r, hr, rfl⟩ := mem_edgeBinary.1 hc
    exact slotOk_bin ⟨t, [ch], m, A, sl.bits, rfl, rfl, le_rfl, by simp, henc, hr, rfl, by simp⟩
  · obtain ⟨c2, pc, hnone, -⟩ := mem_edgePair.1 hc
    cases hnone

/-- The candidates of a slot that consume two characters hold encodings of the text with both (46_mode_encoder.md R349). -/
theorem SlotOk.two (h : SlotOk T w t m sl) {c1 c2 : Nat} {c : Candidate} (hc : c ∈ candidates T m sl c1 (some c2))
    (htwo : c.two = true) : SlotOk T w (t ++ [c1, c2]) c.mode (c.slot w) := by
  obtain ⟨A, hA⟩ := h.exists_current
  have henc := h.encoding hA
  rcases (mem_candidates hA).1 hc with ⟨-, hc⟩ | hc | hc | hc | hc
  · obtain ⟨r, -, -, rfl⟩ := mem_edgeContinue.1 hc
    cases htwo
  · obtain ⟨b, cd, -, rfl⟩ := mem_edgeLatch.1 hc
    cases htwo
  · obtain ⟨x, sh, cd, -, -, rfl⟩ := mem_edgeShift.1 hc
    cases htwo
  · obtain ⟨r, -, rfl⟩ := mem_edgeBinary.1 hc
    cases htwo
  · obtain ⟨c2', pc, hnext, hpc, rfl | ⟨sh, hsh, rfl⟩⟩ := mem_edgePair.1 hc <;> cases hnext
    · exact slotOk_chr (henc.pairLatch c1 c2 pc hpc)
    · exact slotOk_chr (henc.pairShift c1 c2 pc sh hpc hsh)

/-- Every filled slot of a text holds an encoding of it. -/
theorem slotOk_finalBank (h : bankGet (finalBank T w t) m = some sl) : SlotOk T w t m sl := by
  refine finalBank_induction (Q := SlotOk T w) ⟨rfl, fun A hA => ?_, nofun⟩ (fun _ _ _ _ _ hs hc _ => hs.one hc)
    (fun _ _ _ _ _ _ hs hc htwo => hs.two hc htwo) m sl h
  cases hA
  exact .start

/-! ### The edges are relaxed -/

variable (h : bankGet (finalBank T w t) m = some sl) (hA : IsCurrentMode m sl A)
include h hA

/-- Starting a binary run is relaxed (46_mode_encoder.md R348). -/
theorem slotWithin_binary {r : CharMode} (hr : r ∈ aztecBsFrom T) (ch : Nat) : SlotWithin T w (t ++ [ch]) .bin
    (runStart T A r sl.bits ++ runLength 1 ++ msbFirst 8 ch) :=
  slotWithin_of_one h ((mem_candidates hA).2 (.inr (.inr (.inr (.inl (mem_edgeBinary.2 ⟨r, hr, rfl⟩)))))) rfl

/-- Continuing a binary run is relaxed, with the length field rewritten (46_mode_encoder.md R345). -/
theorem slotWithin_continue {r : BinRun} (hm : m = .bin) (hr : sl.binRun = some r) : ∃ pre data,
    sl.bits = pre ++ runLength r.run ++ data ∧ pre.length = r.lenpos ∧ data.length = 8 * r.run ∧
    (r.run < 2078 → ∀ ch, SlotWithin T w (t ++ [ch]) .bin (pre ++ runLength (r.run + 1) ++ data ++ msbFirst 8 ch)) := by
  obtain ⟨r', hr', t0, bytes, m0, A0, bits0, -, hlen, -, -, -, -, hpos, hbits⟩ := (slotOk_finalBank h).bin hm
  cases hr.symm.trans hr'
  refine ⟨_, _, hbits, hpos, ?_, fun hlt ch => ?_⟩
  · simp [← hlen, Function.comp_def, Nat.mul_comm]
  · have hc := slotWithin_of_one h ((mem_candidates hA).2 (.inl ⟨hm, mem_edgeContinue.2 ⟨r, hr, hlt, rfl⟩⟩)) (ch := ch) rfl
    rwa [hbits, rewriteLength_eq hpos] at hc

/-- Both edges of a pair are relaxed (46_mode_encoder.md R349). -/
theorem slotWithin_pair {c1 c2 pc : Nat} (hpc : aztecPair T c1 c2 = some pc) :
    SlotWithin T w (t ++ [c1, c2]) (.chr .punct)
      (sl.bits ++ emitted (aztecLatch T A .punct) ++ emitted [⟨pc, T.widths.get CharMode.punct.index⟩]) ∧
    ∀ sh, aztecShift T A .punct = some sh →
      SlotWithin T w (t ++ [c1, c2]) (.chr A) (sl.bits ++ emitted [sh, ⟨pc, T.widths.get CharMode.punct.index⟩]) := by
  have hmem {c : Candidate} (hc : c ∈ edgePair T A sl.bits c1 (some c2)) : c ∈ candidates T m sl c1 (some c2) :=
    (mem_candidates hA).2 (.inr (.inr (.inr (.inr hc))))
  exact ⟨slotWithin_of_two h (hmem (mem_edgePair.2 ⟨c2, pc, rfl, hpc, .inl rfl⟩)) rfl,
    fun sh hsh => slotWithin_of_two h (hmem (mem_edgePair.2 ⟨c2, pc, rfl, hpc, .inr ⟨sh, hsh, rfl⟩⟩)) rfl⟩

end

/-- Settles O45: every slot comes from an edge out of a slot of a shorter text, and every candidate is relaxed. -/
theorem slotsFollowTheEdges : Obligations.SlotsFollowTheEdges := by
  intro T w t m sl h
  have hok := slotOk_finalBank h
  obtain ⟨A, hA⟩ := hok.exists_current
  refine ⟨hok.cost, ⟨A, hA, hok.encoding hA⟩, fun A hA => ⟨fun b ch c hc => ?_, fun x ch sh c hsh hc => ?_,
    fun r hr ch => slotWithin_binary h hA hr ch, fun r hm hr => slotWithin_continue h hA hm hr,
    fun c1 c2 pc hpc => slotWithin_pair h hA hpc⟩⟩
  · exact slotWithin_of_one h ((mem_candidates hA).2 (.inr (.inl (mem_edgeLatch.2 ⟨b, c, hc, rfl⟩)))) rfl
  · exact slotWithin_of_one h ((mem_candidates hA).2 (.inr (.inr (.inl (mem_edgeShift.2 ⟨x, sh, c, hsh, hc, rfl⟩))))) rfl

/-! ### The final selection -/

/-- R356's choice between the best slot so far and the next. -/
def selectStep (b : Bank) (best : Option (Mode × Slot)) (m : Mode) : Option (Mode × Slot) :=
  match best, bankGet b m with
  | best, none => best
  | none, some sl => some (m, sl)
  | some (m0, sl0), some sl => if sl.cost < sl0.cost then some (m, sl) else some (m0, sl0)

theorem selectSlot_eq (b : Bank) : selectSlot b = Mode.all.foldl (selectStep b) none := rfl

/-- `best` is the filled slot of least cost among the modes `ms`, the first of them where several cost that, or none is
filled (46_mode_encoder.md R356). -/
def BestOf (b : Bank) (ms : List Mode) (best : Option (Mode × Slot)) : Prop :=
  (best = none → ∀ m ∈ ms, bankGet b m = none) ∧
  ∀ m sl, best = some (m, sl) → m ∈ ms ∧ bankGet b m = some sl ∧
    ∀ m' ∈ ms, ∀ sl', bankGet b m' = some sl' → sl.cost ≤ sl'.cost ∧ (sl'.cost = sl.cost → m.index ≤ m'.index)

/-- A step of the selection keeps the best slot, where the next is empty or no cheaper, or takes the next (46_mode_encoder.md
R356). -/
theorem selectStep_cases (b : Bank) (best : Option (Mode × Slot)) (m : Mode) :
    (selectStep b best m = best ∧ ∀ sl, bankGet b m = some sl → ∃ p, best = some p ∧ p.2.cost ≤ sl.cost) ∨
    ∃ sl, selectStep b best m = some (m, sl) ∧ bankGet b m = some sl ∧ ∀ p, best = some p → sl.cost < p.2.cost := by
  unfold selectStep
  cases bankGet b m with
  | none => exact .inl ⟨by cases best <;> rfl, nofun⟩
  | some sl =>
    cases best with
    | none => exact .inr ⟨sl, rfl, rfl, nofun⟩
    | some p =>
      by_cases hlt : sl.cost < p.2.cost
      · exact .inr ⟨sl, if_pos hlt, rfl, fun q hq => Option.some.inj hq ▸ hlt⟩
      · refine .inl ⟨if_neg hlt, fun sl' h => ⟨p, rfl, ?_⟩⟩
        cases h
        exact Nat.not_lt.1 hlt

/-- One mode more, with a number above those before. -/
theorem BestOf.step {b : Bank} {ms : List Mode} {best : Option (Mode × Slot)} (h : BestOf b ms best) {m : Mode}
    (hm : ∀ k ∈ ms, k.index < m.index) : BestOf b (ms ++ [m]) (selectStep b best m) := by
  obtain ⟨hnone, hsome⟩ := h
  have hsplit {k : Mode} (hk : k ∈ ms ++ [m]) : k ∈ ms ∨ k = m := by simpa using hk
  obtain ⟨hstep, hkeep⟩ | ⟨sl, hstep, hslot, hlt⟩ := selectStep_cases b best m <;> rw [hstep]
  · refine ⟨fun hb k hk => ?_, fun m0 sl0 hb => ?_⟩
    · rcases hsplit hk with hk | rfl
      · exact hnone hb k hk
      · refine Option.eq_none_iff_forall_ne_some.2 fun sl hsl => ?_
        obtain ⟨p, hp, -⟩ := hkeep sl hsl
        cases hb.symm.trans hp
    · obtain ⟨hmem, hget, hmin⟩ := hsome m0 sl0 hb
      refine ⟨List.mem_append_left _ hmem, hget, fun k hk sl' hk' => ?_⟩
      rcases hsplit hk with hk | rfl
      · exact hmin k hk sl' hk'
      · obtain ⟨p, hp, hle⟩ := hkeep sl' hk'
        cases hb.symm.trans hp
        exact ⟨hle, fun _ => (hm m0 hmem).le⟩
  · refine ⟨nofun, fun m0 sl0 hb => ?_⟩
    cases hb
    refine ⟨by simp, hslot, fun k hk sl' hk' => ?_⟩
    rcases hsplit hk with hk | rfl
    · cases hbest : best with
      | none => cases (hnone hbest k hk).symm.trans hk'
      | some p =>
        obtain ⟨-, -, hmin⟩ := hsome p.1 p.2 hbest
        have hle := (hmin k hk sl' hk').1
        have hless := hlt p hbest
        exact ⟨by omega, fun _ => by omega⟩
    · cases hslot.symm.trans hk'
      exact ⟨le_rfl, fun _ => le_rfl⟩

/-- The selection over modes of rising number. -/
theorem bestOf_foldl (b : Bank) (ms : List Mode) (h : ms.Pairwise (fun m n => m.index < n.index)) :
    BestOf b ms (ms.foldl (selectStep b) none) := by
  induction ms using List.reverseRecOn with
  | nil => exact ⟨fun _ => nofun, nofun⟩
  | append_singleton ms m ih =>
    obtain ⟨hms, -, hm⟩ := List.pairwise_append.1 h
    rw [List.foldl_append]
    exact (ih hms).step fun k hk => hm k hk m List.mem_cons_self

theorem bestOf_selectSlot (b : Bank) : BestOf b Mode.all (selectSlot b) :=
  selectSlot_eq b ▸ bestOf_foldl b Mode.all (by decide)

section
variable (T : AztecTables) (w : BitVec 5) (t : List Nat)

/-- Some slot of every text is filled, and slot B of every text with a character (46_mode_encoder.md R348). -/
theorem exists_filled : (∃ m sl, bankGet (finalBank T w t) m = some sl) ∧
    (t ≠ [] → ∃ sl, bankGet (finalBank T w t) .bin = some sl) := by
  induction t using List.reverseRecOn with
  | nil => exact ⟨⟨.chr .upper, initialSlot, by rw [show finalBank T w [] = initialBank from rfl, initialBank, bankGet_set, if_pos rfl]⟩,
      fun h => absurd rfl h⟩
  | append_singleton t ch ih =>
    obtain ⟨⟨m, sl, h⟩, -⟩ := ih
    obtain ⟨A, hA⟩ := (slotOk_finalBank h).exists_current
    obtain ⟨sl', h', -⟩ := slotWithin_binary h hA (r := T.bsFirst) List.mem_cons_self ch
    exact ⟨⟨.bin, sl', h'⟩, fun _ => ⟨sl', h'⟩⟩

end

/-- Settles O44: the selection keeps the first slot of least cost, and from every filled slot a binary run can start. -/
theorem chosenSlotIsCheapest : Obligations.ChosenSlotIsCheapest := by
  refine ⟨fun b m sl h => ?_, fun T w text => ?_⟩
  · obtain ⟨-, hget, hmin⟩ := (bestOf_selectSlot b).2 m sl h
    exact ⟨hget, fun m' sl' h' => hmin m' m'.mem_all sl' h'⟩
  · obtain ⟨⟨m, sl, hfilled⟩, hbin⟩ := exists_filled T w text
    refine ⟨hbin, ?_⟩
    cases hs : selectSlot (finalBank T w text) with
    | none => cases ((bestOf_selectSlot _).1 hs m m.mem_all).symm.trans hfilled
    | some p =>
      obtain ⟨-, hget, -⟩ := (bestOf_selectSlot _).2 p.1 p.2 hs
      exact ⟨p.1, p.2, rfl, (slotOk_finalBank hget).cost⟩

end Sys2Proof.Machine
end
